-- ==== Sys2Proof/Config.lean ====
section
/-! DEFINITION. The parameters of the block (00_scope.md R7), fixed at the values this hardware takes. -/

namespace Sys2Proof.Config

/-- Number of 32-bit limbs in every data register, coordinate and configuration field (R7; log 7). -/
abbrev limbs : Nat := 17

/-- Register width `W = 32 * LIMBS` in bits (R7). -/
abbrev width : Nat := 544

/-- Number of data registers (R7, R21). -/
abbrev nreg : Nat := 8

/-- Number of point registers (R7, R23). -/
abbrev npt : Nat := 4

/-- Number of configuration fields (R7, R25). -/
abbrev ncfg : Nat := 5

/-- Size in bytes of the register window (20_memory.md R61). -/
abbrev windowBytes : Nat := 0x200

end Sys2Proof.Config
end

