-- ==== Sys2Proof/Word.lean ====
section
/-! DEFINITION. The two word types: the bus and command word, and the W-bit value (00_scope.md R9). -/

namespace Sys2Proof

/-- A word is 32 bits (00_scope.md R9). -/
abbrev Word := BitVec 32

/-- A W-bit unsigned integer, as a data register, a coordinate or a configuration field holds it
(00_scope.md R7, R9). -/
abbrev Value := BitVec Config.width

end Sys2Proof
end

