-- ==== Sys2Proof/Syntax.lean ====
section
/-! DEFINITION. The commands of the command set, version 1 (30_encoding.md R96), one constructor per row of the
opcode table; the raw fields of a command word (R91); the pseudo-instructions (R101). -/

namespace Sys2Proof

/-- Index of a data register `r0` to `r7` (R93). -/
abbrev DataReg := Fin Config.nreg

/-- Index of a point register `q0` to `q3` (R93). -/
abbrev PointIdx := Fin Config.npt

/-- A configuration selector: the five fields of 10_state.md R25. -/
inductive CfgSel where
  | p | a | b | gx | gy
deriving DecidableEq, Repr

/-- The selector's number, 0 to 4 (10_state.md R25). -/
def CfgSel.index : CfgSel → Fin Config.ncfg
  | .p => ⟨0, by decide⟩
  | .a => ⟨1, by decide⟩
  | .b => ⟨2, by decide⟩
  | .gx => ⟨3, by decide⟩
  | .gy => ⟨4, by decide⟩

/-- The 22 commands of R96. Operands stand in the order of the assembler syntax (R100): destination, then sources. -/
inductive Instr where
  | nop
  | ld (d : DataReg)
  | st (s1 : DataReg)
  | li (d : DataReg) (imm12 : BitVec 12)
  | mov (d s1 : DataReg)
  | cfgset (sel : CfgSel) (s1 : DataReg)
  | commit
  | madd (d s1 s2 : DataReg)
  | mneg (d s1 : DataReg)
  | mmul (d s1 s2 : DataReg)
  | minv (d s1 : DataReg)
  | mpow (d s1 s2 : DataReg)
  | msqrt (d s1 : DataReg)
  | pset (d : PointIdx) (s1 s2 : DataReg)
  | pinf (d : PointIdx)
  | pldg (d : PointIdx)
  | pmov (d s1 : PointIdx)
  | pgetx (d : DataReg) (s1 : PointIdx)
  | pgety (d : DataReg) (s1 : PointIdx)
  | padd (d s1 s2 : PointIdx)
  | pneg (d s1 : PointIdx)
  | pmul (d s1 : PointIdx) (s2 : DataReg)
deriving DecidableEq, Repr

/-- The operations of the opcode map (R96), without operands. -/
inductive Opcode where
  | nop | ld | st | li | mov | cfgset | commit
  | madd | mneg | mmul | minv | mpow | msqrt
  | pset | pinf | pldg | pmov | pgetx | pgety | padd | pneg | pmul
deriving DecidableEq, Repr

/-- The raw fields of a command word (R91). In format I (R92) `imm12` is the field `low`, and the must-be-zero
bits 19:12 are the fields `s1` and `s2`. -/
structure Fields where
  op : BitVec 8
  d : BitVec 4
  s1 : BitVec 4
  s2 : BitVec 4
  low : BitVec 12
deriving DecidableEq, Repr

/-- Pseudo-instruction `MSQR rd, rs1`: modular square (R101). -/
def Instr.msqr (d s1 : DataReg) : Instr := .mmul d s1 s1

/-- Pseudo-instruction `PDBL qd, qs1`: point doubling (R101). -/
def Instr.pdbl (d s1 : PointIdx) : Instr := .padd d s1 s1

end Sys2Proof
end

