-- ==== Sys2Proof/WellFormed.lean ====
section
/-! DEFINITION. Which raw command words are legal, read off the class columns of the table of 30_encoding.md R96.

An `Instr` is well formed by its types (register indices are bounded, a selector is one of five), so the check is on
the raw fields of a word: a word is legal exactly when its opcode is assigned and each field is of the class its row
gives it (R93, R97, R98). Decode.lean is written from the encodings; that the two agree is an obligation. -/

namespace Sys2Proof

/-- What a 4-bit field of a command names (R93, R96). -/
inductive FieldClass where
  /-- `r`: a data register, `0..7`. -/
  | data
  /-- `q`: a point register, `0..3`. -/
  | point
  /-- `sel`: a configuration selector, `0..4`. -/
  | selector
  /-- `-`: unused, must be 0. -/
  | zero
deriving DecidableEq, Repr

/-- What bits 11:0 hold: zero in format R (R91), the immediate in format I (R92). -/
inductive LowClass where
  | zero
  | imm
deriving DecidableEq, Repr

/-- The classes of the fields of one row of R96. -/
structure Shape where
  d : FieldClass
  s1 : FieldClass
  s2 : FieldClass
  low : LowClass
deriving DecidableEq, Repr

/-- The row of R96 for an opcode; none for an unassigned opcode (R98). -/
def shapeOf (op : BitVec 8) : Option Shape :=
  if op = 0x00#8 then some ⟨.zero, .zero, .zero, .zero⟩
  else if op = 0x01#8 then some ⟨.data, .zero, .zero, .zero⟩
  else if op = 0x02#8 then some ⟨.zero, .data, .zero, .zero⟩
  else if op = 0x03#8 then some ⟨.data, .zero, .zero, .imm⟩
  else if op = 0x04#8 then some ⟨.data, .data, .zero, .zero⟩
  else if op = 0x08#8 then some ⟨.selector, .data, .zero, .zero⟩
  else if op = 0x09#8 then some ⟨.zero, .zero, .zero, .zero⟩
  else if op = 0x10#8 then some ⟨.data, .data, .data, .zero⟩
  else if op = 0x11#8 then some ⟨.data, .data, .zero, .zero⟩
  else if op = 0x12#8 then some ⟨.data, .data, .data, .zero⟩
  else if op = 0x13#8 then some ⟨.data, .data, .zero, .zero⟩
  else if op = 0x14#8 then some ⟨.data, .data, .data, .zero⟩
  else if op = 0x15#8 then some ⟨.data, .data, .zero, .zero⟩
  else if op = 0x20#8 then some ⟨.point, .data, .data, .zero⟩
  else if op = 0x21#8 then some ⟨.point, .zero, .zero, .zero⟩
  else if op = 0x22#8 then some ⟨.point, .zero, .zero, .zero⟩
  else if op = 0x23#8 then some ⟨.point, .point, .zero, .zero⟩
  else if op = 0x24#8 then some ⟨.data, .point, .zero, .zero⟩
  else if op = 0x25#8 then some ⟨.data, .point, .zero, .zero⟩
  else if op = 0x28#8 then some ⟨.point, .point, .point, .zero⟩
  else if op = 0x29#8 then some ⟨.point, .point, .zero, .zero⟩
  else if op = 0x2A#8 then some ⟨.point, .point, .data, .zero⟩
  else none

/-- A 4-bit field is of its class (R93). -/
def FieldClass.ok (c : FieldClass) (f : BitVec 4) : Bool :=
  match c with
  | .data => decide (f.toNat < 8)
  | .point => decide (f.toNat < 4)
  | .selector => decide (f.toNat ≤ 4)
  | .zero => f == 0#4

/-- Bits 11:0 are of their class (R91, R92). -/
def LowClass.ok (c : LowClass) (f : BitVec 12) : Bool :=
  match c with
  | .zero => f == 0#12
  | .imm => true

/-- The raw command is legal: some row of R96 takes it (R97); every other word is illegal (R98). -/
def Fields.wf (f : Fields) : Bool :=
  match shapeOf f.op with
  | none => false
  | some s => s.d.ok f.d && s.s1.ok f.s1 && s.s2.ok f.s2 && s.low.ok f.low

end Sys2Proof
end

