-- ==== Sys2Proof/Decode.lean ====
section
/-! DEFINITION. The decoder of a command word (30_encoding.md R90 to R98), total and rejecting by name; the encoder;
the match and mask rows of R96; the assembler text of a command (R100). -/

namespace Sys2Proof

/-- Why a word is illegal: the five causes R98 lists. Every one of them is `ERR_ILLEGAL_CMD` when executed
(60_exceptions.md R234). -/
inductive Malformed where
  /-- An opcode not in the table. -/
  | unassignedOpcode
  /-- A nonzero must-be-zero bit. -/
  | mustBeZero
  /-- A data register index above 7. -/
  | dataIndex
  /-- A point register index above 3. -/
  | pointIndex
  /-- A CFGSET selector above 4. -/
  | selector
deriving DecidableEq, Repr

/-- The word that holds the field `f` at the bits from `lo` up, every other bit 0 (00_scope.md R9). -/
def place {n : Nat} (f : BitVec n) (lo : Nat) : Word := f.setWidth 32 <<< lo

/-- The fields of a word by their bit positions (R91). -/
def Fields.ofWord (c : Word) : Fields where
  op := c.extractLsb' 24 8
  d := c.extractLsb' 20 4
  s1 := c.extractLsb' 16 4
  s2 := c.extractLsb' 12 4
  low := c.extractLsb' 0 12

/-- The word with these fields at their bit positions (R91). -/
def Fields.toWord (f : Fields) : Word :=
  place f.op 24 ||| place f.d 20 ||| place f.s1 16 ||| place f.s2 12 ||| place f.low 0

/-- A field that names a data register holds a value in `0..7` (R93). -/
def decodeData (f : BitVec 4) : Except Malformed DataReg :=
  if h : f.toNat < Config.nreg then .ok ⟨f.toNat, h⟩ else .error .dataIndex

/-- A field that names a point register holds a value in `0..3` (R93). -/
def decodePoint (f : BitVec 4) : Except Malformed PointIdx :=
  if h : f.toNat < Config.npt then .ok ⟨f.toNat, h⟩ else .error .pointIndex

/-- The `d` field of CFGSET holds a selector in `0..4` (R93; 10_state.md R25). -/
def decodeSel (f : BitVec 4) : Except Malformed CfgSel :=
  if f = 0#4 then .ok .p
  else if f = 1#4 then .ok .a
  else if f = 2#4 then .ok .b
  else if f = 3#4 then .ok .gx
  else if f = 4#4 then .ok .gy
  else .error .selector

/-- A field that a command does not use must be 0 (R91). -/
def decodeZero {n : Nat} (f : BitVec n) : Except Malformed Unit :=
  if f = 0#n then .ok () else .error .mustBeZero

/-- The opcode map (the `op` column of R96); every other opcode is unassigned (R98). -/
def decodeOp (op : BitVec 8) : Except Malformed Opcode :=
  if op = 0x00#8 then .ok .nop
  else if op = 0x01#8 then .ok .ld
  else if op = 0x02#8 then .ok .st
  else if op = 0x03#8 then .ok .li
  else if op = 0x04#8 then .ok .mov
  else if op = 0x08#8 then .ok .cfgset
  else if op = 0x09#8 then .ok .commit
  else if op = 0x10#8 then .ok .madd
  else if op = 0x11#8 then .ok .mneg
  else if op = 0x12#8 then .ok .mmul
  else if op = 0x13#8 then .ok .minv
  else if op = 0x14#8 then .ok .mpow
  else if op = 0x15#8 then .ok .msqrt
  else if op = 0x20#8 then .ok .pset
  else if op = 0x21#8 then .ok .pinf
  else if op = 0x22#8 then .ok .pldg
  else if op = 0x23#8 then .ok .pmov
  else if op = 0x24#8 then .ok .pgetx
  else if op = 0x25#8 then .ok .pgety
  else if op = 0x28#8 then .ok .padd
  else if op = 0x29#8 then .ok .pneg
  else if op = 0x2A#8 then .ok .pmul
  else .error .unassignedOpcode

/-- The operands of a command, read from the fields its row of R96 gives them. -/
def Fields.decodeOperands (f : Fields) : Opcode → Except Malformed Instr
  | .nop => do
    decodeZero f.d; decodeZero f.s1; decodeZero f.s2; decodeZero f.low; return .nop
  | .ld => do
    let d ← decodeData f.d; decodeZero f.s1; decodeZero f.s2; decodeZero f.low; return (.ld d)
  | .st => do
    decodeZero f.d; let s1 ← decodeData f.s1; decodeZero f.s2; decodeZero f.low; return (.st s1)
  | .li => do
    let d ← decodeData f.d; decodeZero f.s1; decodeZero f.s2; return (.li d f.low)
  | .mov => do
    let d ← decodeData f.d; let s1 ← decodeData f.s1; decodeZero f.s2; decodeZero f.low; return (.mov d s1)
  | .cfgset => do
    let d ← decodeSel f.d; let s1 ← decodeData f.s1; decodeZero f.s2; decodeZero f.low; return (.cfgset d s1)
  | .commit => do
    decodeZero f.d; decodeZero f.s1; decodeZero f.s2; decodeZero f.low; return .commit
  | .madd => do
    let d ← decodeData f.d; let s1 ← decodeData f.s1; let s2 ← decodeData f.s2; decodeZero f.low; return (.madd d s1 s2)
  | .mneg => do
    let d ← decodeData f.d; let s1 ← decodeData f.s1; decodeZero f.s2; decodeZero f.low; return (.mneg d s1)
  | .mmul => do
    let d ← decodeData f.d; let s1 ← decodeData f.s1; let s2 ← decodeData f.s2; decodeZero f.low; return (.mmul d s1 s2)
  | .minv => do
    let d ← decodeData f.d; let s1 ← decodeData f.s1; decodeZero f.s2; decodeZero f.low; return (.minv d s1)
  | .mpow => do
    let d ← decodeData f.d; let s1 ← decodeData f.s1; let s2 ← decodeData f.s2; decodeZero f.low; return (.mpow d s1 s2)
  | .msqrt => do
    let d ← decodeData f.d; let s1 ← decodeData f.s1; decodeZero f.s2; decodeZero f.low; return (.msqrt d s1)
  | .pset => do
    let d ← decodePoint f.d; let s1 ← decodeData f.s1; let s2 ← decodeData f.s2; decodeZero f.low; return (.pset d s1 s2)
  | .pinf => do
    let d ← decodePoint f.d; decodeZero f.s1; decodeZero f.s2; decodeZero f.low; return (.pinf d)
  | .pldg => do
    let d ← decodePoint f.d; decodeZero f.s1; decodeZero f.s2; decodeZero f.low; return (.pldg d)
  | .pmov => do
    let d ← decodePoint f.d; let s1 ← decodePoint f.s1; decodeZero f.s2; decodeZero f.low; return (.pmov d s1)
  | .pgetx => do
    let d ← decodeData f.d; let s1 ← decodePoint f.s1; decodeZero f.s2; decodeZero f.low; return (.pgetx d s1)
  | .pgety => do
    let d ← decodeData f.d; let s1 ← decodePoint f.s1; decodeZero f.s2; decodeZero f.low; return (.pgety d s1)
  | .padd => do
    let d ← decodePoint f.d; let s1 ← decodePoint f.s1; let s2 ← decodePoint f.s2; decodeZero f.low; return (.padd d s1 s2)
  | .pneg => do
    let d ← decodePoint f.d; let s1 ← decodePoint f.s1; decodeZero f.s2; decodeZero f.low; return (.pneg d s1)
  | .pmul => do
    let d ← decodePoint f.d; let s1 ← decodePoint f.s1; let s2 ← decodeData f.s2; decodeZero f.low; return (.pmul d s1 s2)

/-- The decoder over the raw fields. -/
def Fields.decode (f : Fields) : Except Malformed Instr := do
  let o ← decodeOp f.op
  f.decodeOperands o

/-- The decoder: every 32-bit word is either one command with definite field values or illegal (R97). -/
def decode (c : Word) : Except Malformed Instr := (Fields.ofWord c).decode

/-- A data register index as a 4-bit field (R93). -/
def dataField (r : DataReg) : BitVec 4 := BitVec.ofNat 4 r.val

/-- A point register index as a 4-bit field (R93). -/
def pointField (r : PointIdx) : BitVec 4 := BitVec.ofNat 4 r.val

/-- A selector as a 4-bit field (10_state.md R25). -/
def selField : CfgSel → BitVec 4
  | .p => 0
  | .a => 1
  | .b => 2
  | .gx => 3
  | .gy => 4

/-- The fields of a command's word (the encoding columns of R96). -/
def Instr.fields : Instr → Fields
  | .nop => ⟨0x00, 0, 0, 0, 0⟩
  | .ld d => ⟨0x01, dataField d, 0, 0, 0⟩
  | .st s1 => ⟨0x02, 0, dataField s1, 0, 0⟩
  | .li d imm12 => ⟨0x03, dataField d, 0, 0, imm12⟩
  | .mov d s1 => ⟨0x04, dataField d, dataField s1, 0, 0⟩
  | .cfgset sel s1 => ⟨0x08, selField sel, dataField s1, 0, 0⟩
  | .commit => ⟨0x09, 0, 0, 0, 0⟩
  | .madd d s1 s2 => ⟨0x10, dataField d, dataField s1, dataField s2, 0⟩
  | .mneg d s1 => ⟨0x11, dataField d, dataField s1, 0, 0⟩
  | .mmul d s1 s2 => ⟨0x12, dataField d, dataField s1, dataField s2, 0⟩
  | .minv d s1 => ⟨0x13, dataField d, dataField s1, 0, 0⟩
  | .mpow d s1 s2 => ⟨0x14, dataField d, dataField s1, dataField s2, 0⟩
  | .msqrt d s1 => ⟨0x15, dataField d, dataField s1, 0, 0⟩
  | .pset d s1 s2 => ⟨0x20, pointField d, dataField s1, dataField s2, 0⟩
  | .pinf d => ⟨0x21, pointField d, 0, 0, 0⟩
  | .pldg d => ⟨0x22, pointField d, 0, 0, 0⟩
  | .pmov d s1 => ⟨0x23, pointField d, pointField s1, 0, 0⟩
  | .pgetx d s1 => ⟨0x24, dataField d, pointField s1, 0, 0⟩
  | .pgety d s1 => ⟨0x25, dataField d, pointField s1, 0, 0⟩
  | .padd d s1 s2 => ⟨0x28, pointField d, pointField s1, pointField s2, 0⟩
  | .pneg d s1 => ⟨0x29, pointField d, pointField s1, 0, 0⟩
  | .pmul d s1 s2 => ⟨0x2A, pointField d, pointField s1, dataField s2, 0⟩

/-- The command word of a command (R96). -/
def encode (i : Instr) : Word := i.fields.toWord

/-- One row of the match and mask columns of R96. -/
structure EncodingRow where
  pattern : Word
  mask : Word
deriving DecidableEq, Repr

/-- `(c AND mask) = match` for that row (R97). -/
def EncodingRow.takes (r : EncodingRow) (c : Word) : Bool := c &&& r.mask == r.pattern

/-- The match and mask columns of R96, row by row. -/
def Instr.row : Instr → EncodingRow
  | .nop => ⟨0x00000000, 0xFFFFFFFF⟩
  | .ld _ => ⟨0x01000000, 0xFF8FFFFF⟩
  | .st _ => ⟨0x02000000, 0xFFF8FFFF⟩
  | .li _ _ => ⟨0x03000000, 0xFF8FF000⟩
  | .mov _ _ => ⟨0x04000000, 0xFF88FFFF⟩
  | .cfgset _ _ => ⟨0x08000000, 0xFF08FFFF⟩
  | .commit => ⟨0x09000000, 0xFFFFFFFF⟩
  | .madd _ _ _ => ⟨0x10000000, 0xFF888FFF⟩
  | .mneg _ _ => ⟨0x11000000, 0xFF88FFFF⟩
  | .mmul _ _ _ => ⟨0x12000000, 0xFF888FFF⟩
  | .minv _ _ => ⟨0x13000000, 0xFF88FFFF⟩
  | .mpow _ _ _ => ⟨0x14000000, 0xFF888FFF⟩
  | .msqrt _ _ => ⟨0x15000000, 0xFF88FFFF⟩
  | .pset _ _ _ => ⟨0x20000000, 0xFFC88FFF⟩
  | .pinf _ => ⟨0x21000000, 0xFFCFFFFF⟩
  | .pldg _ => ⟨0x22000000, 0xFFCFFFFF⟩
  | .pmov _ _ => ⟨0x23000000, 0xFFCCFFFF⟩
  | .pgetx _ _ => ⟨0x24000000, 0xFF8CFFFF⟩
  | .pgety _ _ => ⟨0x25000000, 0xFF8CFFFF⟩
  | .padd _ _ _ => ⟨0x28000000, 0xFFCCCFFF⟩
  | .pneg _ _ => ⟨0x29000000, 0xFFCCFFFF⟩
  | .pmul _ _ _ => ⟨0x2A000000, 0xFFCC8FFF⟩

/-- One command of each row of R96, all operands at 0: the rows of the table are the rows of these. -/
def sampleInstrs : List Instr :=
  [.nop, .ld 0, .st 0, .li 0 0, .mov 0 0, .cfgset .p 0, .commit]
  ++ [.madd 0 0 0, .mneg 0 0, .mmul 0 0 0, .minv 0 0, .mpow 0 0 0, .msqrt 0 0]
  ++ [.pset 0 0 0, .pinf 0, .pldg 0, .pmov 0 0, .pgetx 0 0, .pgety 0 0, .padd 0 0 0, .pneg 0 0, .pmul 0 0 0]

/-- The encoding table of R96. -/
def encodingTable : List EncodingRow := sampleInstrs.map Instr.row

/-- A word that R97 decodes: some row takes it, and for the CFGSET row additionally `c[23:20] <= 4`. -/
def legalWord (c : Word) : Bool :=
  encodingTable.any fun r =>
    r.takes c && (r.pattern != 0x08000000#32 || decide ((c.extractLsb' 20 4).toNat ≤ 4))

/-- The word of a table row whose `nbits` bits are `w`, every bit above them 0. A command word is one 32-bit word and has
no byte order of its own (20_memory.md R65). -/
def tableWord (nbits w : Nat) : Word := BitVec.ofNat 32 (w % 2 ^ nbits)

/-- The instruction the decoder reads from a table row's word; none where it refuses, and none for a length no command
has (R90). -/
def decodeTableWord (nbits w : Nat) : Option Instr :=
  if nbits ≤ 32 then (decode (tableWord nbits w)).toOption else none

/-- A data register's name in assembly (R100). -/
def dataName (r : DataReg) : String := "r" ++ toString r.val

/-- A point register's name in assembly (R100). -/
def pointName (r : PointIdx) : String := "q" ++ toString r.val

/-- A selector's name in assembly (R100). -/
def selName : CfgSel → String
  | .p => "P"
  | .a => "A"
  | .b => "B"
  | .gx => "GX"
  | .gy => "GY"

/-- The assembler text of a command: the mnemonic in capitals, then its operands separated by commas, destination first,
the immediate in decimal (R100). -/
def Instr.asm : Instr → String
  | .nop => "NOP"
  | .ld d => "LD " ++ dataName d
  | .st s1 => "ST " ++ dataName s1
  | .li d imm12 => "LI " ++ dataName d ++ ", " ++ toString imm12.toNat
  | .mov d s1 => "MOV " ++ dataName d ++ ", " ++ dataName s1
  | .cfgset sel s1 => "CFGSET " ++ selName sel ++ ", " ++ dataName s1
  | .commit => "COMMIT"
  | .madd d s1 s2 => "MADD " ++ dataName d ++ ", " ++ dataName s1 ++ ", " ++ dataName s2
  | .mneg d s1 => "MNEG " ++ dataName d ++ ", " ++ dataName s1
  | .mmul d s1 s2 => "MMUL " ++ dataName d ++ ", " ++ dataName s1 ++ ", " ++ dataName s2
  | .minv d s1 => "MINV " ++ dataName d ++ ", " ++ dataName s1
  | .mpow d s1 s2 => "MPOW " ++ dataName d ++ ", " ++ dataName s1 ++ ", " ++ dataName s2
  | .msqrt d s1 => "MSQRT " ++ dataName d ++ ", " ++ dataName s1
  | .pset d s1 s2 => "PSET " ++ pointName d ++ ", " ++ dataName s1 ++ ", " ++ dataName s2
  | .pinf d => "PINF " ++ pointName d
  | .pldg d => "PLDG " ++ pointName d
  | .pmov d s1 => "PMOV " ++ pointName d ++ ", " ++ pointName s1
  | .pgetx d s1 => "PGETX " ++ dataName d ++ ", " ++ pointName s1
  | .pgety d s1 => "PGETY " ++ dataName d ++ ", " ++ pointName s1
  | .padd d s1 s2 => "PADD " ++ pointName d ++ ", " ++ pointName s1 ++ ", " ++ pointName s2
  | .pneg d s1 => "PNEG " ++ pointName d ++ ", " ++ pointName s1
  | .pmul d s1 s2 => "PMUL " ++ pointName d ++ ", " ++ pointName s1 ++ ", " ++ dataName s2

end Sys2Proof
end

