-- ==== Sys2Proof/Machine/State.lean ====
section
/-! DEFINITION. The state of the block (10_state.md R20) as plain data, its reset value (R41), and the model's own two
fields around it: the events still to happen and the words the host has read (log 3). -/

namespace Sys2Proof.Machine

/-- A Curve Point: `INF` or `AFF(px, py)` (10_state.md R23). -/
inductive CurvePoint where
  | inf
  | aff (px py : Value)
deriving DecidableEq, Repr

/-- What a point register holds: `EMPTY`, or a Curve Point (10_state.md R23). -/
inductive PointReg where
  | empty
  | holds (p : CurvePoint)
deriving DecidableEq, Repr

/-- The error codes a failing command reports (60_exceptions.md R230); `0x05` is reserved and never raised. -/
inductive ErrorCode where
  | modulusMismatch
  | noInverse
  | noSquareRoot
  | invalidPoint
  | illegalCmd
  | uninit
  | notConfigured
  | configLocked
  | badConfig
  | pointAtInfinity
  | unsupportedModulus
deriving DecidableEq, Repr

/-- The block: exactly the components of 10_state.md R20. -/
structure Block where
  /-- `x[0..7]`, the data registers (R21). -/
  x : Vector Value Config.nreg
  /-- `xv[0..7]`, their valid flags (R21). -/
  xv : Vector Bool Config.nreg
  /-- `q[0..3]`, the point registers (R23). -/
  q : Vector PointReg Config.npt
  /-- `cfg.P, cfg.A, cfg.B, cfg.GX, cfg.GY`, by selector (R25). -/
  cfg : Vector Value Config.ncfg
  /-- `cv[0..4]`, their valid flags (R25). -/
  cv : Vector Bool Config.ncfg
  /-- `LOCKED` (R26). -/
  locked : Bool
  /-- `DIN` (R27). -/
  din : Vector Word Config.limbs
  /-- `DOUT` (R27). -/
  dout : Vector Word Config.limbs
  /-- `CMDREG`, the last command word accepted (R29). -/
  cmdreg : Word
  /-- `BUSY`: a command is latched and not yet completed (R29). -/
  busy : Bool
  /-- `ERR`, 0 means none (60_exceptions.md R240). -/
  err : BitVec 8
  /-- `ERRCMD`, the command word that failed (60_exceptions.md R240). -/
  errcmd : Word
deriving DecidableEq, Repr

/-- The reset state of the block (10_state.md R41). The values of `x` and `cfg` are unspecified there: 0 here
(DESIGN CHOICE, unsafe: log 1 and 2). -/
def Block.reset : Block where
  x := Vector.replicate Config.nreg 0
  xv := Vector.replicate Config.nreg false
  q := Vector.replicate Config.npt .empty
  cfg := Vector.replicate Config.ncfg 0
  cv := Vector.replicate Config.ncfg false
  locked := false
  din := Vector.replicate Config.limbs 0
  dout := Vector.replicate Config.limbs 0
  cmdreg := 0
  busy := false
  err := 0
  errcmd := 0

/-- A bus transaction of the host: a read or a write of `size` bytes at a byte offset of the register window
(20_memory.md R60, R62, R63). -/
inductive Transaction where
  | read (offset size : Nat)
  | write (offset size : Nat) (value : Word)
deriving DecidableEq, Repr

/-- What can happen next: a host transaction (20_memory.md R60), the hardware reset input (70_reset_and_hazards.md R270), or
the engine's turn, at which the engine's step takes place if it is enabled (20_memory.md R70, R72; log 4). -/
inductive Event where
  | host (t : Transaction)
  | hardReset
  | engineTurn
deriving DecidableEq, Repr

/-- The state of the model: the block, and the model's own record of the run around it (log 3). -/
structure State where
  /-- The block's state (10_state.md R20). -/
  block : Block
  /-- The model's own: the events still to happen, in order (70_reset_and_hazards.md R286; DESIGN CHOICE, log 3). -/
  pending : List Event
  /-- The model's own: the words the host's reads have returned, oldest first (70_reset_and_hazards.md R286; log 3). -/
  observed : List Word
deriving DecidableEq, Repr

/-- Right after reset: the block at R41, nothing pending, nothing observed. -/
def State.reset : State where
  block := Block.reset
  pending := []
  observed := []

/-- No condition stops the block for good (70_reset_and_hazards.md R286: "no halt command, no stopped state"); every error of
a command is the error latch, a next state (60_exceptions.md R240). So there is no fault. -/
inductive Fault where
deriving DecidableEq, Repr

/-- What the model gives no meaning. -/
inductive Refusal where
  /-- An instruction whose arm of `exec` has no meaning yet; raised by `exec` alone. Safe. -/
  | notModelled (mnemonic : String)
  /-- A bus access the window does not perform: not 4 bytes, misaligned, or at an offset of `0x200` or more. Raised by `step` on
  such a host transaction, as 20_memory.md R64 asks ("refuse it"). Safe: the block's own answer (no state change, an error
  response) is `busAccess` (log 5). -/
  | busAccessNotPerformed
deriving DecidableEq, Repr

/-- The outcome of a meaning and of a step. -/
abbrev Outcome := Host.Outcome State Fault Refusal

end Sys2Proof.Machine
end

