-- ==== Sys2Proof/Machine/Ops.lean ====
section
/-! DEFINITION. The shared operations: the error latch (entry and return), completing a command, issuing a command, the
lifecycle checks, and every read and write of a register of the block. -/

namespace Sys2Proof.Machine

/-- The code of an error (60_exceptions.md R230). -/
def ErrorCode.code : ErrorCode → BitVec 8
  | .modulusMismatch => 0x01
  | .noInverse => 0x02
  | .noSquareRoot => 0x03
  | .invalidPoint => 0x04
  | .illegalCmd => 0x10
  | .uninit => 0x11
  | .notConfigured => 0x12
  | .configLocked => 0x13
  | .badConfig => 0x14
  | .pointAtInfinity => 0x15
  | .unsupportedModulus => 0x16

/-! ### The error latch -/

/-- Entry (60_exceptions.md R240): `ERR <- E`, `ERRCMD <- CMDREG`, `BUSY <- 0`, and nothing else changes. -/
def Block.raise (b : Block) (e : ErrorCode) : Block :=
  { b with err := e.code, errcmd := b.cmdreg, busy := false }

/-- Return (60_exceptions.md R241): `ERR <- 0`, `ERRCMD <- 0`; nothing is restored. -/
def Block.clearError (b : Block) : Block :=
  { b with err := 0, errcmd := 0 }

/-! ### Completing and issuing a command -/

/-- The end of the engine's step (20_memory.md R70): a success commits its writes with `BUSY <- 0`; a failure commits none of
them and sets the error latch. -/
def Block.complete (b : Block) : Except ErrorCode Block → Block
  | .ok b' => { b' with busy := false }
  | .error e => b.raise e

/-- A command's outcome: its result `r`, computed from the block of `s`, completed. -/
def State.settle (s : State) (r : Except ErrorCode Block) : Outcome :=
  .next { s with block := s.block.complete r }

/-- A command word accepted by a `CMD` write (10_state.md R30): `CMDREG <- c`, `BUSY <- 1`. -/
def Block.issue (b : Block) (c : Word) : Block :=
  { b with cmdreg := c, busy := true }

/-! ### Configuration -/

/-- The configuration field of a selector (10_state.md R25). -/
def Block.field (b : Block) (sel : CfgSel) : Value := b.cfg[sel.index]

/-- `cfg.P` as an integer. -/
def Block.P (b : Block) : Nat := (b.field .p).toNat

/-- `cfg.A` as an integer. -/
def Block.A (b : Block) : Nat := (b.field .a).toNat

/-- `cfg.B` as an integer. -/
def Block.B (b : Block) : Nat := (b.field .b).toNat

/-- `cfg.GX` as an integer. -/
def Block.GX (b : Block) : Nat := (b.field .gx).toNat

/-- `cfg.GY` as an integer. -/
def Block.GY (b : Block) : Nat := (b.field .gy).toNat

/-- Write a configuration field and set its valid flag (40_config_and_data_movement.md R126). -/
def Block.writeField (b : Block) (sel : CfgSel) (v : Value) : Block :=
  { b with cfg := b.cfg.set sel.index v, cv := b.cv.set sel.index true }

/-- `LOCKED <- 1` (40_config_and_data_movement.md R127). -/
def Block.lock (b : Block) : Block :=
  { b with locked := true }

/-! ### Lifecycle checks (60_exceptions.md R235, stage 2 of R244) -/

/-- Arithmetic and point commands need `LOCKED = 1`. -/
def Block.needLocked (b : Block) : Except ErrorCode Unit :=
  if b.locked then .ok () else .error .notConfigured

/-- CFGSET and COMMIT need `LOCKED = 0`. -/
def Block.needUnlocked (b : Block) : Except ErrorCode Unit :=
  if b.locked then .error .configLocked else .ok ()

/-! ### Data registers, point registers, buffers -/

/-- `x[d] <- v` (00_scope.md R10): also `xv[d] <- 1`. -/
def Block.writeData (b : Block) (d : DataReg) (v : Value) : Block :=
  { b with x := b.x.set d v, xv := b.xv.set d true }

/-- `q[d] <- p` (00_scope.md R10). -/
def Block.writePoint (b : Block) (d : PointIdx) (p : CurvePoint) : Block :=
  { b with q := b.q.set d (.holds p) }

/-- All words of `DOUT` at once (40_config_and_data_movement.md R122). -/
def Block.writeDout (b : Block) (w : Vector Word Config.limbs) : Block :=
  { b with dout := w }

/-- One word of `DIN` (20_memory.md R66). -/
def Block.writeDin (b : Block) (i : Fin Config.limbs) (w : Word) : Block :=
  { b with din := b.din.set i w }

end Sys2Proof.Machine
end

