-- ==== Sys2Proof/Machine/Flags.lean ====
section
/-! DEFINITION. The status words the host reads: STATUS, RVALID, PSTAT, PARAM (10_state.md R31, R34 to R36). The block has no
condition codes and no arithmetic flags (R38). -/

namespace Sys2Proof.Machine

/-- `ERRF`: 1 exactly when `ERR != 0` (10_state.md R31). -/
def Block.errf (b : Block) : Bool := b.err != 0#8

/-- One bit of a status word. -/
def flagAt (p : Bool) (i : Nat) : Word := place (BitVec.ofBool p) i

/-- STATUS (10_state.md R31): `BUSY` bit 0, `LOCKED` bit 1, `ERRF` bit 2, `ERR` bits 15:8, the rest 0. -/
def Block.status (b : Block) : Word :=
  flagAt b.busy 0 ||| flagAt b.locked 1 ||| flagAt b.errf 2 ||| place b.err 8

/-- RVALID (10_state.md R34): bit `i` is `xv[i]`, bit `8 + sel` is `cv[sel]`, the rest 0. -/
def Block.rvalid (b : Block) : Word :=
  flagAt b.xv[0] 0 ||| flagAt b.xv[1] 1 ||| flagAt b.xv[2] 2 ||| flagAt b.xv[3] 3 ||| flagAt b.xv[4] 4
    ||| flagAt b.xv[5] 5 ||| flagAt b.xv[6] 6 ||| flagAt b.xv[7] 7 ||| flagAt b.cv[0] 8 ||| flagAt b.cv[1] 9
    ||| flagAt b.cv[2] 10 ||| flagAt b.cv[3] 11 ||| flagAt b.cv[4] 12

/-- The tag of a point register in PSTAT (10_state.md R35). -/
def PointReg.tag : PointReg → BitVec 2
  | .empty => 0b00
  | .holds .inf => 0b01
  | .holds (.aff _ _) => 0b10

/-- PSTAT (10_state.md R35): the tag of point register `i` in bits `2*i+1 : 2*i`, bits 31:8 are 0. -/
def Block.pstat (b : Block) : Word :=
  place b.q[0].tag 0 ||| place b.q[1].tag 2 ||| place b.q[2].tag 4 ||| place b.q[3].tag 6

/-- PARAM (10_state.md R36): `LIMBS` in bits 7:0, `NREG` in bits 11:8, `NPT` in bits 15:12, the rest 0. -/
def param : Word :=
  place (BitVec.ofNat 8 Config.limbs) 0 ||| place (BitVec.ofNat 4 Config.nreg) 8 ||| place (BitVec.ofNat 4 Config.npt) 12

end Sys2Proof.Machine
end

