-- ==== Sys2Proof/Machine/Bus.lean ====
section
/-! DEFINITION. The register window: the map of offsets, bus reads and writes (20_memory.md R61 to R69; 10_state.md R30 to
R37), and the host's listing notation (30_encoding.md R102). -/

namespace Sys2Proof.Machine

/-- What stands at an offset of the window (20_memory.md R61). -/
inductive WindowReg where
  | cmd
  | status
  | errcmd
  | errclr
  | rvalid
  | pstat
  | param
  | srst
  | din (i : Fin Config.limbs)
  | dout (i : Fin Config.limbs)
  /-- The reserved range, and the buffer words with `LIMBS <= i < 32` (R66, R68). -/
  | reserved
deriving DecidableEq, Repr

/-- The map of the window by word number `offset / 4` (20_memory.md R61): `DIN[i]` at `0x100 + 4*i`, `DOUT[i]` at
`0x180 + 4*i`. -/
def windowReg (offset : Nat) : WindowReg :=
  let w := offset / 4
  if w = 0 then .cmd
  else if w = 1 then .status
  else if w = 2 then .errcmd
  else if w = 3 then .errclr
  else if w = 4 then .rvalid
  else if w = 5 then .pstat
  else if w = 6 then .param
  else if w = 7 then .srst
  else if w < 0x40 then .reserved
  else if h : w - 0x40 < Config.limbs then .din ⟨w - 0x40, h⟩
  else if w < 0x60 then .reserved
  else if h : w - 0x60 < Config.limbs then .dout ⟨w - 0x60, h⟩
  else .reserved

/-- The one access the window performs: 4 bytes, aligned, inside the window (20_memory.md R64). -/
def accessPerformed (offset size : Nat) : Bool :=
  size == 4 && offset % 4 == 0 && decide (offset < Config.windowBytes)

/-- The word a performed read returns (20_memory.md R62); a read changes no state. -/
def Block.busRead (b : Block) (offset : Nat) : Word :=
  match windowReg offset with
  | .cmd => b.cmdreg
  | .status => b.status
  | .errcmd => b.errcmd
  | .errclr => 0
  | .rvalid => b.rvalid
  | .pstat => b.pstat
  | .param => Machine.param
  | .srst => 0
  | .din i => b.din[i]
  | .dout i => b.dout[i]
  | .reserved => 0

/-- A write to `CMD` (10_state.md R30): accepted while `BUSY = 0` and `ERR = 0`, otherwise dropped. -/
def Block.writeCmd (b : Block) (c : Word) : Block :=
  if !b.busy && b.err == 0 then b.issue c else b

/-- A write to `ERRCLR` (10_state.md R33): clears the latch while `BUSY = 0`, otherwise no effect. -/
def Block.writeErrclr (b : Block) : Block :=
  if b.busy then b else b.clearError

/-- A write to `SRST` (10_state.md R37): with bit 0 set, the reset state at once, whatever `BUSY` and `ERR` are. -/
def Block.writeSrst (b : Block) (v : Word) : Block :=
  if v.getLsbD 0 then Block.reset else b

/-- A write to `DIN[i]` (20_memory.md R66): dropped while `BUSY = 1`; `ERR` does not matter. -/
def Block.writeDinBus (b : Block) (i : Fin Config.limbs) (v : Word) : Block :=
  if b.busy then b else b.writeDin i v

/-- The block after a performed write (20_memory.md R63). -/
def Block.busWrite (b : Block) (offset : Nat) (v : Word) : Block :=
  match windowReg offset with
  | .cmd => b.writeCmd v
  | .status => b
  | .errcmd => b
  | .errclr => b.writeErrclr
  | .rvalid => b
  | .pstat => b
  | .param => b
  | .srst => b.writeSrst v
  | .din i => b.writeDinBus i v
  | .dout _ => b
  | .reserved => b

/-- What the bus answers a transaction: a word read, a write done, or an error response (20_memory.md R62 to R64). -/
inductive BusResponse where
  | data (w : Word)
  | done
  | errorResponse
deriving DecidableEq, Repr

/-- A bus transaction, performed or not: the block after it and the bus's answer. An access that is not performed changes no
state and gets an error response (20_memory.md R64). -/
def Block.busAccess (b : Block) : Transaction → Block × BusResponse
  | .read offset size => if accessPerformed offset size then (b, .data (b.busRead offset)) else (b, .errorResponse)
  | .write offset size v =>
    if accessPerformed offset size then (b.busWrite offset v, .done) else (b, .errorResponse)

/-- A host transaction in the model's run: a performed read is recorded in `observed`; a transaction that is not performed is
refused (20_memory.md R64, 93_implementation_defined.md U5; log 5). -/
def State.hostAccess (s : State) (t : Transaction) : Outcome :=
  match s.block.busAccess t with
  | (b, .data w) => .next { s with block := b, observed := s.observed ++ [w] }
  | (b, .done) => .next { s with block := b }
  | (_, .errorResponse) => .refused .busAccessNotPerformed

/-! ### The listing notation of host programs (30_encoding.md R102) -/

/-- `W name, value` at an offset. -/
def hostWrite (offset : Nat) (v : Word) : Event := .host (.write offset 4 v)

/-- `R name` at an offset. -/
def hostRead (offset : Nat) : Event := .host (.read offset 4)

end Sys2Proof.Machine
end

