-- ==== Sys2Proof/Machine/Operands.lean ====
section
/-! DEFINITION. Every operand form (30_encoding.md R93 to R95): a data register as a source, as a modular operand, a point
register as a source, the immediate, and the little-endian limbs of the buffers (20_memory.md R65). -/

namespace Sys2Proof.Machine

/-- A data register named as a source (60_exceptions.md R236, stage 3 of R244): `ERR_UNINIT` while its valid flag is 0. -/
def Block.source (b : Block) (r : DataReg) : Except ErrorCode Value :=
  if b.xv[r] then .ok b.x[r] else .error .uninit

/-- A point register named as a source (60_exceptions.md R236): `ERR_UNINIT` while it is `EMPTY`. -/
def Block.sourcePoint (b : Block) (r : PointIdx) : Except ErrorCode CurvePoint :=
  match b.q[r] with
  | .empty => .error .uninit
  | .holds p => .ok p

/-- A source value used as a modular operand (60_exceptions.md R231, stage 4 of R244): below `cfg.P`, never reduced silently. -/
def Block.residue (b : Block) (v : Value) : Except ErrorCode Nat :=
  if v.toNat < b.P then .ok v.toNat else .error .modulusMismatch

/-- A result of the field functions as a W-bit value. -/
def ofNat (n : Nat) : Value := BitVec.ofNat Config.width n

/-- `zext_W(imm12)` (30_encoding.md R94). -/
def immediate (imm12 : BitVec 12) : Value := imm12.setWidth Config.width

/-- `limb(v, i) = v[32*i+31 : 32*i]` (00_scope.md R9). -/
def limb (v : Value) (i : Nat) : Word := v.extractLsb' (32 * i) 32

/-- The limbs of a value, least significant first (20_memory.md R65). -/
def limbsOf (v : Value) : Vector Word Config.limbs := Vector.ofFn fun i => limb v i.val

/-- `sum over i of word[i] * 2^(32*i)`, over a list of words, least significant first (20_memory.md R65). -/
def sumLimbs : List Word → Nat
  | [] => 0
  | w :: ws => w.toNat + 2 ^ 32 * sumLimbs ws

/-- The value a buffer holds (10_state.md R27, 20_memory.md R65). -/
def assemble (w : Vector Word Config.limbs) : Value := ofNat (sumLimbs w.toList)

end Sys2Proof.Machine
end

