-- ==== Sys2Proof/Machine/FieldPipeline.lean ====
section
/-! DEFINITION. field_arithmetic_pipeline: the functions `fadd`, `fneg`, `fsub` and the commands MADD, MNEG
(41_field_arithmetic_pipeline.md R140 to R144). The functions compute on exact integers and reduce modulo `P` (R145). -/

namespace Sys2Proof.Machine

/-- `fadd(a, b) = (a + b) mod P` (R140). -/
def fadd (P a b : Nat) : Nat := (a + b) % P

/-- `fneg(a) = (P - a) mod P` (R141). -/
def fneg (P a : Nat) : Nat := (P - a) % P

/-- `fsub(a, b) = fadd(a, fneg(b))` (R142). -/
def fsub (P a b : Nat) : Nat := fadd P a (fneg P b)

/-- MADD rd, rs1, rs2 (R143). -/
def execMadd (d s1 s2 : DataReg) (s : State) : Outcome :=
  s.settle do
    s.block.needLocked
    let va ← s.block.source s1
    let vb ← s.block.source s2
    let a ← s.block.residue va
    let b ← s.block.residue vb
    return s.block.writeData d (ofNat (fadd s.block.P a b))

/-- MNEG rd, rs1 (R144). -/
def execMneg (d s1 : DataReg) (s : State) : Outcome :=
  s.settle do
    s.block.needLocked
    let va ← s.block.source s1
    let a ← s.block.residue va
    return s.block.writeData d (ofNat (fneg s.block.P a))

end Sys2Proof.Machine
end

