-- ==== Sys2Proof/Machine/Inverse.lean ====
section
/-! DEFINITION. modular_inverse_unit: the function `finv` and the command MINV (43_modular_inverse_unit.md R160, R161). -/

namespace Sys2Proof.Machine

/-- Euclid's algorithm on `(r0, r1)` carrying the coefficients `t0`, `t1` of one argument: with `r0 = t0 * a` and
`r1 = t1 * a` modulo `P` at every round, it ends with `(g, t)` where `g` is the greatest common divisor. The first argument
bounds the rounds; `r1 + 1` of them are enough, since the remainder falls strictly (log 9). -/
def euclid : Nat → Nat → Int → Nat → Int → Nat × Int
  | 0, r0, t0, _, _ => (r0, t0)
  | n + 1, r0, t0, r1, t1 =>
    if r1 = 0 then (r0, t0) else euclid n r1 t1 (r0 % r1) (t0 - (r0 / r1 : Nat) * t1)

/-- `finv(a)` (R160): when `gcd(a, P) = 1` the `c` in `[0, P)` with `(a * c) mod P = 1`, otherwise `ERR_NO_INVERSE`. Which
method finds `c` is not observable (93_implementation_defined.md U8); here the extended Euclidean algorithm. -/
def finv (P a : Nat) : Except ErrorCode Nat :=
  let r := euclid (a + 1) P 0 a 1
  if r.1 = 1 then .ok (r.2 % (P : Int)).toNat else .error .noInverse

/-- MINV rd, rs1 (R161). -/
def execMinv (d s1 : DataReg) (s : State) : Outcome :=
  s.settle do
    s.block.needLocked
    let va ← s.block.source s1
    let a ← s.block.residue va
    let c ← finv s.block.P a
    return s.block.writeData d (ofNat c)

end Sys2Proof.Machine
end

