-- ==== Sys2Proof/Machine/Multiplier.lean ====
section
/-! DEFINITION. montgomery_multiplier unit: the function `fmul` and the command MMUL (42_montgomery_multiplier.md R150, R151).
Operands and result are ordinary residues; no Montgomery form exists in the state (R152). -/

namespace Sys2Proof.Machine

/-- `fmul(a, b) = (a * b) mod P`, the product exact (R150). -/
def fmul (P a b : Nat) : Nat := (a * b) % P

/-- MMUL rd, rs1, rs2 (R151). -/
def execMmul (d s1 s2 : DataReg) (s : State) : Outcome :=
  s.settle do
    s.block.needLocked
    let va ← s.block.source s1
    let vb ← s.block.source s2
    let a ← s.block.residue va
    let b ← s.block.residue vb
    return s.block.writeData d (ofNat (fmul s.block.P a b))

end Sys2Proof.Machine
end

