-- ==== Sys2Proof/Machine/PointAdder.lean ====
section
/-! DEFINITION. elliptic_curve_point_adder: the functions `on_curve`, `group_op`, `group_inverse` and the commands PSET, PINF,
PLDG, PMOV, PGETX, PGETY, PADD, PNEG (45_elliptic_curve_point_adder.md R185 to R195). -/

namespace Sys2Proof.Machine

/-- `on_curve(x, y)`: `y^2 = x^3 + a*x + b` modulo `P`, through the field functions (R185). -/
def onCurve (P A B x y : Nat) : Bool :=
  fmul P y y == fadd P (fadd P (fmul P (fmul P x x) x) (fmul P A x)) B

/-- Steps 4 to 6 of `group_op` (R186) on two affine points that case 3 has let through: the tangent when they are equal, else the
chord; then the slope and the third point. -/
def chordTangent (P A x1 y1 x2 y2 : Nat) : Except ErrorCode (Nat × Nat) := do
  let double := decide (x1 = x2 ∧ y1 = y2)
  let num := if double then fadd P (fmul P (3 % P) (fmul P x1 x1)) A else fsub P y2 y1
  let den := if double then fadd P y1 y1 else fsub P x2 x1
  let inv ← finv P den
  let lam := fmul P num inv
  let x3 := fsub P (fsub P (fmul P lam lam) x1) x2
  let y3 := fsub P (fmul P lam (fsub P x1 x3)) y1
  return (x3, y3)

/-- `group_op(S, T)`, the cases in the order of R186. -/
def groupOp (P A : Nat) : CurvePoint → CurvePoint → Except ErrorCode CurvePoint
  | .inf, t => .ok t
  | s, .inf => .ok s
  | .aff x1 y1, .aff x2 y2 =>
    if x1.toNat = x2.toNat ∧ y2.toNat = fneg P y1.toNat then .ok .inf
    else do
      let r ← chordTangent P A x1.toNat y1.toNat x2.toNat y2.toNat
      return .aff (ofNat r.1) (ofNat r.2)

/-- `group_inverse(S)` (R187). -/
def groupInverse (P : Nat) : CurvePoint → CurvePoint
  | .inf => .inf
  | .aff x y => .aff x (ofNat (fneg P y.toNat))

/-- PSET qd, rs1, rs2 (R188): an affine point, checked against the curve equation. -/
def execPset (d : PointIdx) (s1 s2 : DataReg) (s : State) : Outcome :=
  s.settle do
    s.block.needLocked
    let px ← s.block.source s1
    let py ← s.block.source s2
    let nx ← s.block.residue px
    let ny ← s.block.residue py
    if onCurve s.block.P s.block.A s.block.B nx ny then
      return s.block.writePoint d (.aff px py)
    else .error .invalidPoint

/-- PINF qd (R189): the point at infinity. -/
def execPinf (d : PointIdx) (s : State) : Outcome :=
  s.settle do
    s.block.needLocked
    return s.block.writePoint d .inf

/-- PLDG qd (R190): the base point. -/
def execPldg (d : PointIdx) (s : State) : Outcome :=
  s.settle do
    s.block.needLocked
    return s.block.writePoint d (.aff (s.block.field .gx) (s.block.field .gy))

/-- PMOV qd, qs1 (R191): copy a point register. -/
def execPmov (d s1 : PointIdx) (s : State) : Outcome :=
  s.settle do
    s.block.needLocked
    let p ← s.block.sourcePoint s1
    return s.block.writePoint d p

/-- PGETX rd, qs1 (R192): the x coordinate of an affine point. -/
def execPgetx (d : DataReg) (s1 : PointIdx) (s : State) : Outcome :=
  s.settle do
    s.block.needLocked
    let p ← s.block.sourcePoint s1
    match p with
    | .inf => .error .pointAtInfinity
    | .aff px _ => return s.block.writeData d px

/-- PGETY rd, qs1 (R193): the y coordinate of an affine point. -/
def execPgety (d : DataReg) (s1 : PointIdx) (s : State) : Outcome :=
  s.settle do
    s.block.needLocked
    let p ← s.block.sourcePoint s1
    match p with
    | .inf => .error .pointAtInfinity
    | .aff _ py => return s.block.writeData d py

/-- PADD qd, qs1, qs2 (R194): the group operation. -/
def execPadd (d s1 s2 : PointIdx) (s : State) : Outcome :=
  s.settle do
    s.block.needLocked
    let p ← s.block.sourcePoint s1
    let r ← s.block.sourcePoint s2
    let t ← groupOp s.block.P s.block.A p r
    return s.block.writePoint d t

/-- PNEG qd, qs1 (R195): the group inverse. -/
def execPneg (d s1 : PointIdx) (s : State) : Outcome :=
  s.settle do
    s.block.needLocked
    let p ← s.block.sourcePoint s1
    return s.block.writePoint d (groupInverse s.block.P p)

end Sys2Proof.Machine
end

