-- ==== Sys2Proof/Machine/Configuration.lean ====
section
/-! DEFINITION. Configuration: CFGSET and COMMIT (40_config_and_data_movement.md R125 to R127). -/

namespace Sys2Proof.Machine

/-- CFGSET sel, rs1 (R126): write one configuration field, no range check. -/
def execCfgset (sel : CfgSel) (s1 : DataReg) (s : State) : Outcome :=
  s.settle do
    s.block.needUnlocked
    let v ← s.block.source s1
    return s.block.writeField sel v

/-- Every configuration field has been set (the second line of R127). -/
def Block.allSet (b : Block) : Bool :=
  b.cv[0] && b.cv[1] && b.cv[2] && b.cv[3] && b.cv[4]

/-- The checks of COMMIT after the lifecycle check, in the order of R127. -/
def Block.checkConfig (b : Block) : Except ErrorCode Unit :=
  if !b.allSet then .error .badConfig
  else if b.P % 2 = 0 ∨ b.P < 3 then .error .badConfig
  else if b.P ≤ b.A ∨ b.P ≤ b.B ∨ b.P ≤ b.GX ∨ b.P ≤ b.GY then .error .modulusMismatch
  else if !onCurve b.P b.A b.B b.GX b.GY then .error .invalidPoint
  else .ok ()

/-- COMMIT (R127): validate and lock the configuration. -/
def execCommit (s : State) : Outcome :=
  s.settle do
    s.block.needUnlocked
    s.block.checkConfig
    return s.block.lock

end Sys2Proof.Machine
end

