-- ==== Sys2Proof/Machine/DataMovement.lean ====
section
/-! DEFINITION. Data movement: NOP, LD, ST, LI, MOV (40_config_and_data_movement.md R120 to R124). Legal in both lifecycle
states (60_exceptions.md R235). -/

namespace Sys2Proof.Machine

/-- NOP (R120): nothing but the completion of the command. -/
def execNop (s : State) : Outcome :=
  s.settle (.ok s.block)

/-- LD rd (R121): `x[d]` gets the integer in `DIN`; no range check; `DIN` is unchanged. -/
def execLd (d : DataReg) (s : State) : Outcome :=
  s.settle (.ok (s.block.writeData d (assemble s.block.din)))

/-- ST rs1 (R122): `DOUT[i] <- limb(x[s1], i)` for all words at once. -/
def execSt (s1 : DataReg) (s : State) : Outcome :=
  s.settle do
    let v ← s.block.source s1
    return s.block.writeDout (limbsOf v)

/-- LI rd, imm12 (R123): `x[d] <- zext_W(imm12)`. -/
def execLi (d : DataReg) (imm12 : BitVec 12) (s : State) : Outcome :=
  s.settle (.ok (s.block.writeData d (immediate imm12)))

/-- MOV rd, rs1 (R124): `x[d] <- x[s1]`; no range check. -/
def execMov (d s1 : DataReg) (s : State) : Outcome :=
  s.settle do
    let v ← s.block.source s1
    return s.block.writeData d v

end Sys2Proof.Machine
end

