-- ==== Sys2Proof/Machine/Exponentiation.lean ====
section
/-! DEFINITION. modular_exponentiation_engine: the functions `fpow`, `fsqrt` and the commands MPOW, MSQRT
(44_modular_exponentiation_engine.md R170 to R174). -/

namespace Sys2Proof.Machine

/-- `bitlen(k)` (00_scope.md R9): 0 for 0, else the index of the most significant 1 bit plus 1. -/
def bitlen (k : Nat) : Nat := if k = 0 then 0 else Nat.log2 k + 1

/-- The loop of R170 over bits `i - 1` down to 0 of the exponent, the running product in `r`. -/
def powLoop (P a e : Nat) : Nat → Nat → Nat
  | 0, r => r
  | i + 1, r =>
    let sq := fmul P r r
    powLoop P a e i (if e.testBit i then fmul P sq a else sq)

/-- `fpow(a, e) = a^e mod P` by square-and-multiply, most significant bit first (R170). -/
def fpow (P a e : Nat) : Nat := powLoop P a e (bitlen e) 1

/-- `fsqrt(a)` (R173): the shortcut `a^((P+1)/4)` for `P mod 4 = 3`, verified by squaring. -/
def fsqrt (P a : Nat) : Except ErrorCode Nat :=
  if P % 4 ≠ 3 then .error .unsupportedModulus
  else
    let r := fpow P a ((P + 1) / 4)
    if fmul P r r ≠ a then .error .noSquareRoot else .ok r

/-- MPOW rd, rs1, rs2 (R171): `x[s1]` the base, a modular operand; `x[s2]` the exponent, never range-checked. -/
def execMpow (d s1 s2 : DataReg) (s : State) : Outcome :=
  s.settle do
    s.block.needLocked
    let va ← s.block.source s1
    let e ← s.block.source s2
    let a ← s.block.residue va
    return s.block.writeData d (ofNat (fpow s.block.P a e.toNat))

/-- MSQRT rd, rs1 (R174). -/
def execMsqrt (d s1 : DataReg) (s : State) : Outcome :=
  s.settle do
    s.block.needLocked
    let va ← s.block.source s1
    let a ← s.block.residue va
    let r ← fsqrt s.block.P a
    return s.block.writeData d (ofNat r)

end Sys2Proof.Machine
end

