-- ==== Sys2Proof/Machine/ScalarMultiplier.lean ====
section
/-! DEFINITION. elliptic_curve_scalar_multiplier: the function `scalar_mul` and the command PMUL
(46_elliptic_curve_scalar_multiplier.md R215, R216). -/

namespace Sys2Proof.Machine

/-- The line `if k[i] = 1: R <- group_op(R, S)` of R215. -/
def addOnOne (P A : Nat) (S : CurvePoint) (one : Bool) (r : CurvePoint) : Except ErrorCode CurvePoint :=
  if one then groupOp P A r S else .ok r

/-- The loop of R215 over bits `i - 1` down to 0 of the scalar, the running point in `r`: double, then add `S` on a 1 bit. -/
def mulLoop (P A : Nat) (S : CurvePoint) (k : Nat) : Nat → CurvePoint → Except ErrorCode CurvePoint
  | 0, r => .ok r
  | i + 1, r => do
    let doubled ← groupOp P A r r
    let next ← addOnOne P A S (k.testBit i) doubled
    mulLoop P A S k i next

/-- `scalar_mul(S, k)`: double-and-add, most significant bit first, from `INF` (R215). -/
def scalarMul (P A : Nat) (S : CurvePoint) (k : Nat) : Except ErrorCode CurvePoint :=
  mulLoop P A S k (bitlen k) .inf

/-- PMUL qd, qs1, rs2 (R216): `qs1` the point, `rs2` the scalar, never range-checked. -/
def execPmul (d s1 : PointIdx) (s2 : DataReg) (s : State) : Outcome :=
  s.settle do
    s.block.needLocked
    let p ← s.block.sourcePoint s1
    let k ← s.block.source s2
    let t ← scalarMul s.block.P s.block.A p k.toNat
    return s.block.writePoint d t

end Sys2Proof.Machine
end

