-- ==== Sys2Proof/Machine/Dispatch.lean ====
section
/-! DEFINITION. The dispatch of a command to its meaning, one arm per constructor of `Instr`. -/

namespace Sys2Proof.Machine

-- The meaning of a command: what the engine's step (20_memory.md R70) makes of it.
def exec (i : Instr) (s : State) : Host.Outcome State Fault Refusal :=
  match i with
  | .nop => Sys2Proof.Machine.execNop s
  | .ld d => Sys2Proof.Machine.execLd d s
  | .st s1 => Sys2Proof.Machine.execSt s1 s
  | .li d imm12 => Sys2Proof.Machine.execLi d imm12 s
  | .mov d s1 => Sys2Proof.Machine.execMov d s1 s
  | .cfgset sel s1 => Sys2Proof.Machine.execCfgset sel s1 s
  | .commit => Sys2Proof.Machine.execCommit s
  | .madd d s1 s2 => Sys2Proof.Machine.execMadd d s1 s2 s
  | .mneg d s1 => Sys2Proof.Machine.execMneg d s1 s
  | .mmul d s1 s2 => Sys2Proof.Machine.execMmul d s1 s2 s
  | .minv d s1 => Sys2Proof.Machine.execMinv d s1 s
  | .mpow d s1 s2 => Sys2Proof.Machine.execMpow d s1 s2 s
  | .msqrt d s1 => Sys2Proof.Machine.execMsqrt d s1 s
  | .pset d s1 s2 => Sys2Proof.Machine.execPset d s1 s2 s
  | .pinf d => Sys2Proof.Machine.execPinf d s
  | .pldg d => Sys2Proof.Machine.execPldg d s
  | .pmov d s1 => Sys2Proof.Machine.execPmov d s1 s
  | .pgetx d s1 => Sys2Proof.Machine.execPgetx d s1 s
  | .pgety d s1 => Sys2Proof.Machine.execPgety d s1 s
  | .padd d s1 s2 => Sys2Proof.Machine.execPadd d s1 s2 s
  | .pneg d s1 => Sys2Proof.Machine.execPneg d s1 s
  | .pmul d s1 s2 => Sys2Proof.Machine.execPmul d s1 s2 s

end Sys2Proof.Machine
end

