-- ==== Sys2Proof/Machine/Engine.lean ====
section
/-! DEFINITION. The engine's step (20_memory.md R70) and the turn-taking of the host, the engine and the reset input
(20_memory.md R72, 70_reset_and_hazards.md R270; log 4). -/

namespace Sys2Proof.Machine

/-- The engine executes the command in `CMDREG` to completion (20_memory.md R70); a word that does not decode fails with
`ERR_ILLEGAL_CMD`, nothing about the state consulted (60_exceptions.md R234, stage 1 of R244). -/
def engineStep (s : State) : Outcome :=
  match decode s.block.cmdreg with
  | .ok i => exec i s
  | .error _ => s.settle (.error .illegalCmd)

/-- The engine's turn: its step is enabled exactly when `BUSY = 1` (20_memory.md R70); otherwise the block holds its state
(60_exceptions.md R251). -/
def engineTurn (s : State) : Outcome :=
  if s.block.busy then engineStep s else .next s

/-- The hardware reset input (70_reset_and_hazards.md R270): the whole block to its reset state. The host's own record of the
run is not the block's and stays (log 11). -/
def hardReset (s : State) : Outcome :=
  .next { s with block := Block.reset }

/-- One event of the run. -/
def happen (e : Event) (s : State) : Outcome :=
  match e with
  | .host t => s.hostAccess t
  | .hardReset => hardReset s
  | .engineTurn => engineTurn s

/-- One atomic step of the run (20_memory.md R72): the next pending event, or the engine's turn when none is left. The list is
finite, so a latched command is always executed (20_memory.md R71; log 4). -/
def advance (s : State) : Outcome :=
  match s.pending with
  | [] => engineTurn s
  | e :: rest => happen e { s with pending := rest }

/-- The steps of a host that writes a command to `CMD`, lets the engine execute it and reads `STATUS` once: a command mnemonic
on a line of a listing (30_encoding.md R102, 70_reset_and_hazards.md R280). -/
def hostCommand (i : Instr) : List Event :=
  [hostWrite 0x000 (encode i), .engineTurn, hostRead 0x004]

/-- `DIN <= v`: the writes of the limbs of `v` (30_encoding.md R102). -/
def hostSetDin (v : Value) : List Event :=
  (List.range Config.limbs).map fun i => hostWrite (0x100 + 4 * i) (limb v i)

/-- `DOUT => v`: the reads of the limbs (30_encoding.md R102). -/
def hostGetDout : List Event :=
  (List.range Config.limbs).map fun i => hostRead (0x180 + 4 * i)

end Sys2Proof.Machine
end

