-- ==== Sys2Proof/Machine/Step.lean ====
section
/-! DEFINITION. The step of the machine, and the placing of a command where the next step takes it. -/

namespace Sys2Proof.Machine

/-- One step: the next event of the run (Engine.lean). -/
def step (s : State) : Outcome := advance s

/-- `s` with the table word accepted as the command in flight (`CMDREG`, `BUSY = 1`: the effect of a `CMD` write, 10_state.md
R30) and the engine's turn next, so that the very next step executes it (log 6). -/
def State.withFetchWord (s : State) (nbits w : Nat) : State :=
  { s with block := s.block.issue (tableWord nbits w), pending := .engineTurn :: s.pending }

end Sys2Proof.Machine
end

