-- ==== Sys2Proof/Safety.lean ====
section
/-! DEFINITION. The words claims are stated in: the outcomes of a command written out as states, what a command names as
sources and destinations, the invariants of the block the spec states (10_state.md R24, R26, R32; 60_exceptions.md R230, R240,
R242; 40_config_and_data_movement.md R127), the observable part of a block (10_state.md R21), and the runs whose host
transactions the window performs (20_memory.md R64). -/

namespace Sys2Proof.Machine

/-! ### The outcomes of a command, written out -/

/-- The command has failed with this code: `ERR <- E`, `ERRCMD <- CMDREG`, `BUSY <- 0`, nothing else (60_exceptions.md R240). -/
def State.failedWith (s : State) (code : BitVec 8) : State :=
  { s with block := { s.block with err := code, errcmd := s.block.cmdreg, busy := false } }

/-- The command has written data register `d` with `v`, set `xv[d]`, and `BUSY <- 0` (00_scope.md R10, 20_memory.md R70). -/
def State.wroteData (s : State) (d : DataReg) (v : Value) : State :=
  { s with block := { s.block with x := s.block.x.set d v, xv := s.block.xv.set d true, busy := false } }

/-- The command has written point register `d` with `p`, and `BUSY <- 0`. -/
def State.wrotePoint (s : State) (d : PointIdx) (p : CurvePoint) : State :=
  { s with block := { s.block with q := s.block.q.set d (.holds p), busy := false } }

/-- The command has written nothing, and `BUSY <- 0`. -/
def State.wroteNothing (s : State) : State :=
  { s with block := { s.block with busy := false } }

/-- The data register is valid and holds the integer `n`. -/
abbrev Block.Holds (b : Block) (r : DataReg) (n : Nat) : Prop := b.xv[r] = true ∧ b.x[r].toNat = n

/-! ### What a command names (the operand lines of the command rules) -/

/-- The data registers a command names as sources (60_exceptions.md R236). -/
def dataSources : Instr → List DataReg
  | .nop => []
  | .ld _ => []
  | .st s1 => [s1]
  | .li _ _ => []
  | .mov _ s1 => [s1]
  | .cfgset _ s1 => [s1]
  | .commit => []
  | .madd _ s1 s2 => [s1, s2]
  | .mneg _ s1 => [s1]
  | .mmul _ s1 s2 => [s1, s2]
  | .minv _ s1 => [s1]
  | .mpow _ s1 s2 => [s1, s2]
  | .msqrt _ s1 => [s1]
  | .pset _ s1 s2 => [s1, s2]
  | .pinf _ => []
  | .pldg _ => []
  | .pmov _ _ => []
  | .pgetx _ _ => []
  | .pgety _ _ => []
  | .padd _ _ _ => []
  | .pneg _ _ => []
  | .pmul _ _ s2 => [s2]

/-- The point registers a command names as sources (60_exceptions.md R236). -/
def pointSources : Instr → List PointIdx
  | .nop => []
  | .ld _ => []
  | .st _ => []
  | .li _ _ => []
  | .mov _ _ => []
  | .cfgset _ _ => []
  | .commit => []
  | .madd _ _ _ => []
  | .mneg _ _ => []
  | .mmul _ _ _ => []
  | .minv _ _ => []
  | .mpow _ _ _ => []
  | .msqrt _ _ => []
  | .pset _ _ _ => []
  | .pinf _ => []
  | .pldg _ => []
  | .pmov _ s1 => [s1]
  | .pgetx _ s1 => [s1]
  | .pgety _ s1 => [s1]
  | .padd _ s1 s2 => [s1, s2]
  | .pneg _ s1 => [s1]
  | .pmul _ s1 _ => [s1]

/-- The modular operands of a command: both sources of MADD, MMUL and PSET, the source of MNEG, MINV and MSQRT, the base of MPOW
(60_exceptions.md R231). -/
def modularOperands : Instr → List DataReg
  | .nop => []
  | .ld _ => []
  | .st _ => []
  | .li _ _ => []
  | .mov _ _ => []
  | .cfgset _ _ => []
  | .commit => []
  | .madd _ s1 s2 => [s1, s2]
  | .mneg _ s1 => [s1]
  | .mmul _ s1 s2 => [s1, s2]
  | .minv _ s1 => [s1]
  | .mpow _ s1 _ => [s1]
  | .msqrt _ s1 => [s1]
  | .pset _ s1 s2 => [s1, s2]
  | .pinf _ => []
  | .pldg _ => []
  | .pmov _ _ => []
  | .pgetx _ _ => []
  | .pgety _ _ => []
  | .padd _ _ _ => []
  | .pneg _ _ => []
  | .pmul _ _ _ => []

/-- The data register a command writes (10_state.md R21). -/
def destData : Instr → Option DataReg
  | .nop => none
  | .ld d => some d
  | .st _ => none
  | .li d _ => some d
  | .mov d _ => some d
  | .cfgset _ _ => none
  | .commit => none
  | .madd d _ _ => some d
  | .mneg d _ => some d
  | .mmul d _ _ => some d
  | .minv d _ => some d
  | .mpow d _ _ => some d
  | .msqrt d _ => some d
  | .pset _ _ _ => none
  | .pinf _ => none
  | .pldg _ => none
  | .pmov _ _ => none
  | .pgetx d _ => some d
  | .pgety d _ => some d
  | .padd _ _ _ => none
  | .pneg _ _ => none
  | .pmul _ _ _ => none

/-- The point register a command writes (10_state.md R23). -/
def destPoint : Instr → Option PointIdx
  | .nop => none
  | .ld _ => none
  | .st _ => none
  | .li _ _ => none
  | .mov _ _ => none
  | .cfgset _ _ => none
  | .commit => none
  | .madd _ _ _ => none
  | .mneg _ _ => none
  | .mmul _ _ _ => none
  | .minv _ _ => none
  | .mpow _ _ _ => none
  | .msqrt _ _ => none
  | .pset d _ _ => some d
  | .pinf d => some d
  | .pldg d => some d
  | .pmov d _ => some d
  | .pgetx _ _ => none
  | .pgety _ _ => none
  | .padd d _ _ => some d
  | .pneg d _ => some d
  | .pmul d _ _ => some d

/-- The command may run in the block's lifecycle state (60_exceptions.md R235): `op >= 0x10` needs `LOCKED = 1`, CFGSET and
COMMIT (`0x08`, `0x09`) need `LOCKED = 0`, the rest run in both. -/
abbrev LifecycleOk (i : Instr) (b : Block) : Prop :=
  (0x10 ≤ i.fields.op.toNat → b.locked = true) ∧
  (i.fields.op.toNat = 0x08 ∨ i.fields.op.toNat = 0x09 → b.locked = false)

/-- Every source the command names is valid (60_exceptions.md R236). -/
abbrev SourcesValid (i : Instr) (b : Block) : Prop :=
  (∀ r ∈ dataSources i, b.xv[r] = true) ∧ (∀ r ∈ pointSources i, b.q[r] ≠ .empty)

/-! ### The invariants of the block -/

/-- A point of the curve `y^2 = x^3 + A*x + B` modulo `P`: `INF`, or canonical residues that satisfy `on_curve`
(10_state.md R24, 45_elliptic_curve_point_adder.md R185). -/
def IsCurvePoint (P A B : Nat) : CurvePoint → Prop
  | .inf => True
  | .aff px py => px.toNat < P ∧ py.toNat < P ∧ onCurve P A B px.toNat py.toNat = true

/-- The point registers: while `LOCKED = 1` each holds nothing or a point of the curve; while `LOCKED = 0` each is `EMPTY`
(10_state.md R24). -/
def Block.PointsOnCurve (b : Block) : Prop :=
  ∀ (i : PointIdx) (p : CurvePoint), b.q[i] = .holds p → b.locked = true ∧ IsCurvePoint b.P b.A b.B p

/-- What COMMIT has checked holds while `LOCKED = 1` (40_config_and_data_movement.md R127; 10_state.md R26). -/
def Block.ConfigChecked (b : Block) : Prop :=
  b.locked = true →
    (∀ sel : CfgSel, b.cv[sel.index] = true) ∧ b.P % 2 = 1 ∧ 3 ≤ b.P ∧
    b.A < b.P ∧ b.B < b.P ∧ b.GX < b.P ∧ b.GY < b.P ∧ onCurve b.P b.A b.B b.GX b.GY = true

/-- The codes of 60_exceptions.md R230. -/
def errorCodes : List (BitVec 8) := [0x01, 0x02, 0x03, 0x04, 0x10, 0x11, 0x12, 0x13, 0x14, 0x15, 0x16]

/-- `ERR` holds 0 or one of the codes of 60_exceptions.md R230. -/
def Block.LegalErr (b : Block) : Prop := b.err = 0 ∨ b.err ∈ errorCodes

/-- The error latch: no command is in flight while an error is latched (60_exceptions.md R242); `ERRCMD` is 0 when `ERR` is 0
(10_state.md R32), and else the word in `CMDREG`, since no later word is accepted (60_exceptions.md R240, R242). -/
def Block.LatchConsistent (b : Block) : Prop :=
  (b.busy = true → b.err = 0) ∧ (b.err = 0 → b.errcmd = 0) ∧ (b.err ≠ 0 → b.errcmd = b.cmdreg)

/-- The values 10_state.md R41 gives for reset; the values of `x` and `cfg`, which it leaves unspecified, are not named. -/
structure Block.IsReset (b : Block) : Prop where
  xv : ∀ r : DataReg, b.xv[r] = false
  q : ∀ r : PointIdx, b.q[r] = .empty
  cv : ∀ sel : CfgSel, b.cv[sel.index] = false
  locked : b.locked = false
  din : ∀ i : Fin Config.limbs, b.din[i] = 0
  dout : ∀ i : Fin Config.limbs, b.dout[i] = 0
  cmdreg : b.cmdreg = 0
  busy : b.busy = false
  err : b.err = 0
  errcmd : b.errcmd = 0

/-- The invariant of the block. -/
structure Block.Inv (b : Block) : Prop where
  points : b.PointsOnCurve
  config : b.ConfigChecked
  legalErr : b.LegalErr
  latch : b.LatchConsistent

/-- The invariant of a state: that of its block. -/
def State.Inv (s : State) : Prop := s.block.Inv

/-! ### What can be observed -/

/-- Two blocks agree on all that any transaction can observe: everything but the values of data registers and configuration
fields whose valid flags are 0 (10_state.md R21, R41). -/
structure Block.SameObservable (b c : Block) : Prop where
  xv : b.xv = c.xv
  x : ∀ i : DataReg, b.xv[i] = true → b.x[i] = c.x[i]
  q : b.q = c.q
  cv : b.cv = c.cv
  cfg : ∀ sel : CfgSel, b.cv[sel.index] = true → b.field sel = c.field sel
  locked : b.locked = c.locked
  din : b.din = c.din
  dout : b.dout = c.dout
  cmdreg : b.cmdreg = c.cmdreg
  busy : b.busy = c.busy
  err : b.err = c.err
  errcmd : b.errcmd = c.errcmd

/-- Two states with the same events to come, the same words observed, and blocks that agree on all that can be observed. -/
structure State.SameObservable (s t : State) : Prop where
  block : s.block.SameObservable t.block
  pending : s.pending = t.pending
  observed : s.observed = t.observed

/-! ### What the next step is -/

/-- The next event is this performed write of the host (20_memory.md R63). -/
def State.HostWrites (s : State) (offset : Nat) (v : Word) : Prop := ∃ rest, s.pending = .host (.write offset 4 v) :: rest

/-- The next event is this performed read of the host (20_memory.md R62). -/
def State.HostReads (s : State) (offset : Nat) : Prop := ∃ rest, s.pending = .host (.read offset 4) :: rest

/-- The next event is a reset: the hardware reset input, or a write to `SRST` with bit 0 set (70_reset_and_hazards.md R270). -/
def State.ResetNext (s : State) : Prop :=
  (∃ rest, s.pending = .hardReset :: rest) ∨ ∃ v : Word, v.getLsbD 0 = true ∧ s.HostWrites 0x01C v

/-- The next step is the engine's: a command is in flight, and it is the engine's turn or no event is pending (20_memory.md R70;
log 4). -/
def State.EngineNext (s : State) : Prop :=
  s.block.busy = true ∧ (s.pending = [] ∨ ∃ rest, s.pending = .engineTurn :: rest)

/-- The next step is the engine's step of this command. -/
def State.Runs (s : State) (i : Instr) : Prop := s.EngineNext ∧ decode s.block.cmdreg = .ok i

/-! ### Runs -/

/-- The window performs the event's access, if it is one (20_memory.md R64). -/
def Event.performed : Event → Bool
  | .host (.read offset size) => accessPerformed offset size
  | .host (.write offset size _) => accessPerformed offset size
  | .hardReset => true
  | .engineTurn => true

/-- Every host transaction still to happen is one the window performs. -/
def State.Performed (s : State) : Prop := ∀ e ∈ s.pending, e.performed = true

end Sys2Proof.Machine
end

