-- ==== Sys2Proof/Certificates/Slice0/Obligations.lean ====
section
/-! DEFINITION. The statements for the provers: what the numbered rules of spec/ say the commands, the bus, the engine's step, the
error latch and reset do. A statement about every state holds in states no run reaches; where it needs a configured block it
says so (`3 <= P`), or takes the invariant `Inv` of Safety.lean as a premise, which two statements of their own establish. -/

open Sys2Proof Sys2Proof.Machine

/-! ### Encoding (30_encoding.md) -/

/-- Words written out from the encodings of R96 decode to the commands they stand for. -/
def Obligations.WordsOfTheTableDecode : Prop :=
  decode 0x01700000 = .ok (.ld 7) ∧ decode 0x02030000 = .ok (.st 3) ∧ decode 0x03700FFF = .ok (.li 7 4095) ∧
  decode 0x08470000 = .ok (.cfgset .gy 7) ∧ decode 0x09000000 = .ok .commit ∧ decode 0x10312000 = .ok (.madd 3 1 2) ∧
  decode 0x13210000 = .ok (.minv 2 1) ∧ decode 0x15540000 = .ok (.msqrt 5 4) ∧ decode 0x20056000 = .ok (.pset 0 5 6) ∧
  decode 0x28312000 = .ok (.padd 3 1 2) ∧ decode 0x2A314000 = .ok (.pmul 3 1 4)

/-- For every command, with every operand at every value the encoding admits, the decoder reads the command back from its word,
and the word is legal by the class columns of R96. -/
def Obligations.DecodeOfEncodeIsIdentity : Prop :=
  ∀ i : Instr, decode (encode i) = .ok i ∧ (Fields.ofWord (encode i)).wf = true

/-- A word that decodes is the word of the command it decodes to: no bit of a word is ignored (R98: "no reserved-but-ignored
bits"). -/
def Obligations.EncodeOfDecodeIsIdentity : Prop :=
  ∀ (c : Word) (i : Instr), decode c = .ok i → encode i = c

/-- R97, whole: a word decodes as the command of a row exactly when it matches the row (and, for the CFGSET row, bits 23:20 are at
most 4); no word matches two rows; every word is either one command or illegal. -/
def Obligations.DecodesExactlyTheTableRows : Prop :=
  (∀ (c : Word) (j : Instr),
    (∃ i, decode c = .ok i ∧ i.row = j.row) ↔
      (j.row.takes c = true ∧ (j.row.pattern = 0x08000000 → (c.extractLsb' 20 4).toNat ≤ 4))) ∧
  encodingTable.Pairwise (fun r t => ∀ c : Word, ¬(r.takes c = true ∧ t.takes c = true)) ∧
  (∀ c : Word, (∃ i, decode c = .ok i) ∨ (∃ m, decode c = .error m))

/-- R234 and R98: a word with an unassigned opcode, a nonzero must-be-zero bit, or an index or selector out of range fails with
`ERR_ILLEGAL_CMD` in every state and changes nothing else; every other word decodes. -/
def Obligations.IllegalWordFails : Prop :=
  (∀ s : State, (Fields.ofWord s.block.cmdreg).wf = false → engineStep s = .next (s.failedWith 0x10)) ∧
  (∀ c : Word, (Fields.ofWord c).wf = true → ∃ i, decode c = .ok i)

/-! ### The engine's step (20_memory.md R70 to R72) -/

/-- While `BUSY = 1` and `CMDREG` decodes to `i`, the step at the engine's turn, or with no event pending, is `exec i`; when
`CMDREG` does not decode (R234) it latches `ERR_ILLEGAL_CMD` and changes nothing else; while `BUSY = 0` the engine's turn changes
nothing. -/
def Obligations.StepRunsTheDecodedCommand : Prop :=
  ∀ (s : State) (rest : List Event),
    (∀ i, s.block.busy = true → decode s.block.cmdreg = .ok i →
      (s.pending = [] → step s = exec i s) ∧
      (s.pending = .engineTurn :: rest → step s = exec i { s with pending := rest })) ∧
    (∀ m, s.block.busy = true → decode s.block.cmdreg = .error m →
      (s.pending = [] → step s = .next (s.failedWith 0x10)) ∧
      (s.pending = .engineTurn :: rest → step s = .next (State.failedWith { s with pending := rest } 0x10))) ∧
    (s.block.busy = false →
      (s.pending = [] → step s = .next s) ∧
      (s.pending = .engineTurn :: rest → step s = .next { s with pending := rest }))

/-- The command placed by `withFetchWord` is the one the very next step runs (log 6: the model's own way of placing a command). -/
def Obligations.PlacedWordRunsNext : Prop :=
  ∀ (s : State) (i : Instr),
    step (s.withFetchWord 32 (encode i).toNat) =
      exec i { s with block := { s.block with cmdreg := encode i, busy := true } }

/-- R30, whole: a `CMD` write while `BUSY = 0` and `ERR = 0` latches the word and sets `BUSY`; otherwise no state changes; a read
returns `CMDREG`; its reset value is 0. -/
def Obligations.CmdWriteIssuesOrIsDropped : Prop :=
  (∀ (s : State) (rest : List Event) (c : Word), s.pending = .host (.write 0x000 4 c) :: rest →
    (s.block.busy = false → s.block.err = 0 →
      step s = .next { s with pending := rest, block := { s.block with cmdreg := c, busy := true } }) ∧
    (s.block.busy = true ∨ s.block.err ≠ 0 → step s = .next { s with pending := rest })) ∧
  (∀ b : Block, b.busRead 0x000 = b.cmdreg) ∧ Block.reset.cmdreg = 0

/-- R240: every command answers a next state, not busy; either it has failed with a code of R230 and only the latch is set
(and `STATUS` shows `ERRF = 1` and the code), or the latch is as before; and it never touches `DIN` or `CMDREG`. -/
def Obligations.EveryCommandCommitsOrOnlyLatches : Prop :=
  ∀ (i : Instr) (s : State), ∃ t : State, exec i s = .next t ∧ t.block.busy = false ∧
    t.pending = s.pending ∧ t.observed = s.observed ∧ t.block.din = s.block.din ∧ t.block.cmdreg = s.block.cmdreg ∧
    ((∃ code ∈ errorCodes, t = s.failedWith code ∧
        (t.block.busRead 0x004).getLsbD 2 = true ∧ (t.block.busRead 0x004).extractLsb' 8 8 = code) ∨
     (t.block.err = s.block.err ∧ t.block.errcmd = s.block.errcmd))

/-- R71: whatever transactions the host still has to perform, the engine is not starved: after one step for each pending event and
one more, nothing is pending and no command is in flight. The finite list of events is the model's own form of a run and of the
engine's fairness (logs 3 and 4). -/
def Obligations.EveryRunEnds : Prop :=
  ∀ s : State, s.Performed →
    ∃ t : State, Host.Core.run Sys2Proof.core (s.pending.length + 1) s = .next t ∧ t.pending = [] ∧ t.block.busy = false

/-! ### Errors common to many commands (60_exceptions.md R231, R235, R236, R244) -/

/-- R235, whole: a legal command with `op >= 0x10` fails with `ERR_NOT_CONFIGURED` while `LOCKED = 0`; CFGSET and COMMIT fail with
`ERR_CONFIG_LOCKED` while `LOCKED = 1`; NOP, LD, ST, LI, MOV report neither in either state. -/
def Obligations.LifecycleErrors : Prop :=
  (∀ (i : Instr) (s : State), 0x10 ≤ i.fields.op.toNat → s.block.locked = false → exec i s = .next (s.failedWith 0x12)) ∧
  (∀ (sel : CfgSel) (r : DataReg) (s : State), s.block.locked = true →
    exec (.cfgset sel r) s = .next (s.failedWith 0x13) ∧ exec .commit s = .next (s.failedWith 0x13)) ∧
  (∀ (i : Instr) (s : State), i.fields.op.toNat < 0x08 → s.block.err = 0 →
    ∃ t, exec i s = .next t ∧ t.block.err ≠ 0x12 ∧ t.block.err ≠ 0x13)

/-- R236, whole: a command allowed in the lifecycle state that names as a source a data register with `xv = 0` or a point register
that is `EMPTY` fails with `ERR_UNINIT`, whichever source is at fault; with every source valid it reports no `ERR_UNINIT`, whatever
its destination holds. -/
def Obligations.UninitializedSourceFails : Prop :=
  ∀ (i : Instr) (s : State), LifecycleOk i s.block →
    ((∃ r ∈ dataSources i, s.block.xv[r] = false) ∨ (∃ r ∈ pointSources i, s.block.q[r] = .empty) →
      exec i s = .next (s.failedWith 0x11)) ∧
    (SourcesValid i s.block → s.block.err = 0 → ∃ t, exec i s = .next t ∧ t.block.err ≠ 0x11)

/-- R231: a modular operand not below `cfg.P` fails with `ERR_MODULUS_MISMATCH`, once lifecycle and sources are right; so does COMMIT
of a complete configuration with an odd `P >= 3` and some other field not below `P`. -/
def Obligations.ModulusMismatchFails : Prop :=
  (∀ (i : Instr) (s : State), LifecycleOk i s.block → SourcesValid i s.block →
    (∃ r ∈ modularOperands i, s.block.P ≤ s.block.x[r].toNat) → exec i s = .next (s.failedWith 0x01)) ∧
  (∀ s : State, s.block.locked = false → (∀ sel : CfgSel, s.block.cv[sel.index] = true) →
    s.block.P % 2 = 1 → 3 ≤ s.block.P →
    (s.block.P ≤ s.block.A ∨ s.block.P ≤ s.block.B ∨ s.block.P ≤ s.block.GX ∨ s.block.P ≤ s.block.GY) →
    exec .commit s = .next (s.failedWith 0x01))

/-! ### Data movement and configuration (40_config_and_data_movement.md) -/

/-- R120 and R123: NOP changes nothing; LI writes the zero-extended immediate; both in every state. -/
def Obligations.NopAndLiResults : Prop :=
  ∀ (s : State) (d : DataReg) (imm12 : BitVec 12),
    exec .nop s = .next s.wroteNothing ∧
    exec (.li d imm12) s = .next (s.wroteData d (BitVec.ofNat 544 imm12.toNat))

/-- R121: LD writes the integer `sum of DIN[i] * 2^(32*i)`, which fits in W bits, in every state. -/
def Obligations.LdLoadsTheLimbSum : Prop :=
  ∀ (s : State) (d : DataReg),
    (∑ i : Fin 17, (s.block.din[i]).toNat * 2 ^ (32 * i.val)) < 2 ^ 544 ∧
    exec (.ld d) s = .next (s.wroteData d (BitVec.ofNat 544 (∑ i : Fin 17, (s.block.din[i]).toNat * 2 ^ (32 * i.val))))

/-- R122: ST fails with `ERR_UNINIT` on an invalid source; else `DOUT[i]` is bits `32*i+31 : 32*i` of the register, for every `i`, and
nothing but `DOUT` and `BUSY` changes. -/
def Obligations.StStoresTheLimbs : Prop :=
  ∀ (s : State) (r : DataReg),
    (s.block.xv[r] = false → exec (.st r) s = .next (s.failedWith 0x11)) ∧
    (∀ n, s.block.Holds r n → ∃ w : Vector Word 17,
      exec (.st r) s = .next { s with block := { s.block with dout := w, busy := false } } ∧
      ∀ i : Fin 17, (w[i]).toNat = n / 2 ^ (32 * i.val) % 2 ^ 32)

/-- R124: MOV copies a valid register and fails with `ERR_UNINIT` on an invalid one; the lifecycle state does not matter. -/
def Obligations.MovCopies : Prop :=
  ∀ (s : State) (d r : DataReg),
    (s.block.xv[r] = false → exec (.mov d r) s = .next (s.failedWith 0x11)) ∧
    (s.block.xv[r] = true → exec (.mov d r) s = .next (s.wroteData d s.block.x[r]))

/-- R126: CFGSET, its errors in order, and else the selected field and its valid flag, no range check. -/
def Obligations.CfgsetWritesTheField : Prop :=
  ∀ (s : State) (sel : CfgSel) (r : DataReg),
    (s.block.locked = true → exec (.cfgset sel r) s = .next (s.failedWith 0x13)) ∧
    (s.block.locked = false → s.block.xv[r] = false → exec (.cfgset sel r) s = .next (s.failedWith 0x11)) ∧
    (s.block.locked = false → s.block.xv[r] = true →
      exec (.cfgset sel r) s = .next
        { s with block :=
          { s.block with cfg := s.block.cfg.set sel.index s.block.x[r], cv := s.block.cv.set sel.index true, busy := false } })

/-- R127: COMMIT, its checks in order, each with its code; when all pass, `LOCKED <- 1` and nothing else. The curve equation of the
base point is written out. -/
def Obligations.CommitChecksAndLocks : Prop :=
  ∀ s : State,
    let b := s.block
    let allSet := ∀ sel : CfgSel, b.cv[sel.index] = true
    let goodP := b.P % 2 = 1 ∧ 3 ≤ b.P
    let inRange := b.A < b.P ∧ b.B < b.P ∧ b.GX < b.P ∧ b.GY < b.P
    let baseOn := b.GY ^ 2 % b.P = (b.GX ^ 3 + b.A * b.GX + b.B) % b.P
    (b.locked = true → exec .commit s = .next (s.failedWith 0x13)) ∧
    (b.locked = false → ¬allSet → exec .commit s = .next (s.failedWith 0x14)) ∧
    (b.locked = false → allSet → ¬goodP → exec .commit s = .next (s.failedWith 0x14)) ∧
    (b.locked = false → allSet → goodP → ¬inRange → exec .commit s = .next (s.failedWith 0x01)) ∧
    (b.locked = false → allSet → goodP → inRange → ¬baseOn → exec .commit s = .next (s.failedWith 0x04)) ∧
    (b.locked = false → allSet → goodP → inRange → baseOn →
      exec .commit s = .next { s with block := { b with locked := true, busy := false } })

/-! ### Modular arithmetic (41_ to 44_) -/

/-- R140 and R143: MADD, its errors in order, and else `x[d] = (a + b) mod P`. -/
def Obligations.MaddAddsModP : Prop :=
  ∀ (s : State) (d r1 r2 : DataReg),
    (s.block.locked = false → exec (.madd d r1 r2) s = .next (s.failedWith 0x12)) ∧
    (s.block.locked = true → s.block.xv[r1] = false ∨ s.block.xv[r2] = false →
      exec (.madd d r1 r2) s = .next (s.failedWith 0x11)) ∧
    (∀ a b, s.block.locked = true → s.block.Holds r1 a → s.block.Holds r2 b →
      (s.block.P ≤ a ∨ s.block.P ≤ b → exec (.madd d r1 r2) s = .next (s.failedWith 0x01)) ∧
      (a < s.block.P → b < s.block.P →
        exec (.madd d r1 r2) s = .next (s.wroteData d (BitVec.ofNat 544 ((a + b) % s.block.P)))))

/-- R141 and R144: MNEG, its errors in order, and else `x[d] = 0` for `a = 0` and `P - a` otherwise. -/
def Obligations.MnegNegatesModP : Prop :=
  ∀ (s : State) (d r : DataReg),
    (s.block.locked = false → exec (.mneg d r) s = .next (s.failedWith 0x12)) ∧
    (s.block.locked = true → s.block.xv[r] = false → exec (.mneg d r) s = .next (s.failedWith 0x11)) ∧
    (∀ a, s.block.locked = true → s.block.Holds r a →
      (s.block.P ≤ a → exec (.mneg d r) s = .next (s.failedWith 0x01)) ∧
      (a < s.block.P →
        exec (.mneg d r) s = .next (s.wroteData d (BitVec.ofNat 544 (if a = 0 then 0 else s.block.P - a)))))

/-- R151: MMUL, its errors in order, and else `x[d] = (a * b) mod P`, the product exact. -/
def Obligations.MmulMultipliesModP : Prop :=
  ∀ (s : State) (d r1 r2 : DataReg),
    (s.block.locked = false → exec (.mmul d r1 r2) s = .next (s.failedWith 0x12)) ∧
    (s.block.locked = true → s.block.xv[r1] = false ∨ s.block.xv[r2] = false →
      exec (.mmul d r1 r2) s = .next (s.failedWith 0x11)) ∧
    (∀ a b, s.block.locked = true → s.block.Holds r1 a → s.block.Holds r2 b →
      (s.block.P ≤ a ∨ s.block.P ≤ b → exec (.mmul d r1 r2) s = .next (s.failedWith 0x01)) ∧
      (a < s.block.P → b < s.block.P →
        exec (.mmul d r1 r2) s = .next (s.wroteData d (BitVec.ofNat 544 (a * b % s.block.P)))))

/-- R160 and R161: MINV, its errors in order; for `gcd(a, P) = 1` the unique `c` in `[0, P)` with `(a * c) mod P = 1`, for every other
residue `ERR_NO_INVERSE`. -/
def Obligations.MinvInvertsOrFails : Prop :=
  ∀ (s : State) (d r : DataReg),
    (s.block.locked = false → exec (.minv d r) s = .next (s.failedWith 0x12)) ∧
    (s.block.locked = true → s.block.xv[r] = false → exec (.minv d r) s = .next (s.failedWith 0x11)) ∧
    (∀ a, s.block.locked = true → s.block.Holds r a →
      (s.block.P ≤ a → exec (.minv d r) s = .next (s.failedWith 0x01)) ∧
      (3 ≤ s.block.P → a < s.block.P → Nat.gcd a s.block.P ≠ 1 → exec (.minv d r) s = .next (s.failedWith 0x02)) ∧
      (3 ≤ s.block.P → a < s.block.P → Nat.gcd a s.block.P = 1 →
        ∃ c, c < s.block.P ∧ a * c % s.block.P = 1 ∧ (∀ c', c' < s.block.P → a * c' % s.block.P = 1 → c' = c) ∧
          exec (.minv d r) s = .next (s.wroteData d (BitVec.ofNat 544 c))))

/-- R170 and R171: MPOW, its errors in order (only the base is range-checked), and else `x[d] = a^e mod P`, with `e = 0` giving 1. -/
def Obligations.MpowIsThePowerModP : Prop :=
  ∀ (s : State) (d r1 r2 : DataReg),
    (s.block.locked = false → exec (.mpow d r1 r2) s = .next (s.failedWith 0x12)) ∧
    (s.block.locked = true → s.block.xv[r1] = false ∨ s.block.xv[r2] = false →
      exec (.mpow d r1 r2) s = .next (s.failedWith 0x11)) ∧
    (∀ a e, s.block.locked = true → s.block.Holds r1 a → s.block.Holds r2 e →
      (s.block.P ≤ a → exec (.mpow d r1 r2) s = .next (s.failedWith 0x01)) ∧
      (3 ≤ s.block.P → a < s.block.P →
        exec (.mpow d r1 r2) s = .next (s.wroteData d (BitVec.ofNat 544 (a ^ e % s.block.P)))))

/-- R173 and R174: MSQRT, its errors in order; for `P mod 4 = 3` exactly `a^((P+1)/4) mod P` when its square is `a`, else
`ERR_NO_SQUARE_ROOT`. -/
def Obligations.MsqrtTakesTheShortcutRoot : Prop :=
  ∀ (s : State) (d r : DataReg),
    (s.block.locked = false → exec (.msqrt d r) s = .next (s.failedWith 0x12)) ∧
    (s.block.locked = true → s.block.xv[r] = false → exec (.msqrt d r) s = .next (s.failedWith 0x11)) ∧
    (∀ a, s.block.locked = true → s.block.Holds r a →
      let root := a ^ ((s.block.P + 1) / 4) % s.block.P
      (s.block.P ≤ a → exec (.msqrt d r) s = .next (s.failedWith 0x01)) ∧
      (a < s.block.P → s.block.P % 4 ≠ 3 → exec (.msqrt d r) s = .next (s.failedWith 0x16)) ∧
      (a < s.block.P → s.block.P % 4 = 3 → root * root % s.block.P ≠ a →
        exec (.msqrt d r) s = .next (s.failedWith 0x03)) ∧
      (a < s.block.P → s.block.P % 4 = 3 → root * root % s.block.P = a →
        exec (.msqrt d r) s = .next (s.wroteData d (BitVec.ofNat 544 root))))

/-- R153: after `MINV r2, r1` succeeds, `MMUL r3, r1, r2` leaves `x[3] = 1`, for every `P >= 3`, prime or not. -/
def Obligations.InverseTimesValueIsOne : Prop :=
  ∀ (s t : State) (r1 r2 r3 : DataReg), r1 ≠ r2 → 3 ≤ s.block.P → s.block.err = 0 →
    exec (.minv r2 r1) s = .next t → t.block.err = 0 →
    exec (.mmul r3 r1 r2) t = .next (t.wroteData r3 1)

/-! ### Points (45_elliptic_curve_point_adder.md, 46_elliptic_curve_scalar_multiplier.md) -/

/-- R185 and R188: PSET, its errors in order; an affine point is written exactly when `y^2 = x^3 + a*x + b` modulo `P`. -/
def Obligations.PsetChecksTheCurve : Prop :=
  ∀ (s : State) (d : PointIdx) (r1 r2 : DataReg),
    (s.block.locked = false → exec (.pset d r1 r2) s = .next (s.failedWith 0x12)) ∧
    (s.block.locked = true → s.block.xv[r1] = false ∨ s.block.xv[r2] = false →
      exec (.pset d r1 r2) s = .next (s.failedWith 0x11)) ∧
    (∀ x y, s.block.locked = true → s.block.Holds r1 x → s.block.Holds r2 y →
      let P := s.block.P
      (P ≤ x ∨ P ≤ y → exec (.pset d r1 r2) s = .next (s.failedWith 0x01)) ∧
      (x < P → y < P → y ^ 2 % P ≠ (x ^ 3 + s.block.A * x + s.block.B) % P →
        exec (.pset d r1 r2) s = .next (s.failedWith 0x04)) ∧
      (x < P → y < P → y ^ 2 % P = (x ^ 3 + s.block.A * x + s.block.B) % P →
        exec (.pset d r1 r2) s = .next (s.wrotePoint d (.aff s.block.x[r1] s.block.x[r2]))))

/-- R189 and R190: PINF writes `INF`, PLDG the base point, each once the block is configured. -/
def Obligations.PinfAndPldgConstruct : Prop :=
  ∀ (s : State) (d : PointIdx),
    (s.block.locked = false →
      exec (.pinf d) s = .next (s.failedWith 0x12) ∧ exec (.pldg d) s = .next (s.failedWith 0x12)) ∧
    (s.block.locked = true →
      exec (.pinf d) s = .next (s.wrotePoint d .inf) ∧
      exec (.pldg d) s = .next (s.wrotePoint d (.aff (s.block.field .gx) (s.block.field .gy))))

/-- R191, R187 and R195: PMOV copies a point register; PNEG maps `INF` to `INF` and `AFF(x, y)` to `AFF(x, 0)` for `y = 0` and
`AFF(x, P - y)` for another residue; both report their errors in order. -/
def Obligations.PmovAndPnegResults : Prop :=
  ∀ (s : State) (d q1 : PointIdx),
    (s.block.locked = false →
      exec (.pmov d q1) s = .next (s.failedWith 0x12) ∧ exec (.pneg d q1) s = .next (s.failedWith 0x12)) ∧
    (s.block.locked = true → s.block.q[q1] = .empty →
      exec (.pmov d q1) s = .next (s.failedWith 0x11) ∧ exec (.pneg d q1) s = .next (s.failedWith 0x11)) ∧
    (∀ p, s.block.locked = true → s.block.q[q1] = .holds p → exec (.pmov d q1) s = .next (s.wrotePoint d p)) ∧
    (s.block.locked = true → s.block.q[q1] = .holds .inf → exec (.pneg d q1) s = .next (s.wrotePoint d .inf)) ∧
    (∀ x y, s.block.locked = true → s.block.q[q1] = .holds (.aff x y) → y.toNat < s.block.P →
      exec (.pneg d q1) s = .next (s.wrotePoint d (.aff x (if y = 0 then 0 else s.block.field .p - y))))

/-- R192 and R193: PGETX and PGETY read a coordinate of an affine point, and fail with `ERR_POINT_AT_INFINITY` on `INF`. -/
def Obligations.PgetReadsCoordinates : Prop :=
  ∀ (s : State) (d : DataReg) (q1 : PointIdx),
    (s.block.locked = false →
      exec (.pgetx d q1) s = .next (s.failedWith 0x12) ∧ exec (.pgety d q1) s = .next (s.failedWith 0x12)) ∧
    (s.block.locked = true → s.block.q[q1] = .empty →
      exec (.pgetx d q1) s = .next (s.failedWith 0x11) ∧ exec (.pgety d q1) s = .next (s.failedWith 0x11)) ∧
    (s.block.locked = true → s.block.q[q1] = .holds .inf →
      exec (.pgetx d q1) s = .next (s.failedWith 0x15) ∧ exec (.pgety d q1) s = .next (s.failedWith 0x15)) ∧
    (∀ x y, s.block.locked = true → s.block.q[q1] = .holds (.aff x y) →
      exec (.pgetx d q1) s = .next (s.wroteData d x) ∧ exec (.pgety d q1) s = .next (s.wroteData d y))

/-- R186 (cases 1 to 3) and R194: PADD's errors before the operation; adding `INF` gives the other operand; a point and one with the
same x and the additive-inverse y give `INF`. -/
def Obligations.PaddIdentityAndInverse : Prop :=
  ∀ (s : State) (d q1 q2 : PointIdx),
    (s.block.locked = false → exec (.padd d q1 q2) s = .next (s.failedWith 0x12)) ∧
    (s.block.locked = true → s.block.q[q1] = .empty ∨ s.block.q[q2] = .empty →
      exec (.padd d q1 q2) s = .next (s.failedWith 0x11)) ∧
    (∀ p, s.block.locked = true → s.block.q[q1] = .holds .inf → s.block.q[q2] = .holds p →
      exec (.padd d q1 q2) s = .next (s.wrotePoint d p)) ∧
    (∀ p, s.block.locked = true → s.block.q[q1] = .holds p → s.block.q[q2] = .holds .inf →
      exec (.padd d q1 q2) s = .next (s.wrotePoint d p)) ∧
    (∀ x y1 y2, s.block.locked = true → s.block.q[q1] = .holds (.aff x y1) → s.block.q[q2] = .holds (.aff x y2) →
      y1.toNat < s.block.P → y2.toNat < s.block.P → (y1.toNat + y2.toNat) % s.block.P = 0 →
      exec (.padd d q1 q2) s = .next (s.wrotePoint d .inf))

/-- R186 (cases 4 to 6): the tangent and the chord, by congruences modulo `P`: with `lam * den = num`, the third point is
`x3 = lam^2 - x1 - x2`, `y3 = lam * (x1 - x3) - y1`; when the denominator shares a factor with `P`, `ERR_NO_INVERSE`. -/
def Obligations.PaddTangentAndChord : Prop :=
  ∀ (s : State) (d q1 q2 : PointIdx) (x1 y1 x2 y2 : Value),
    let P := s.block.P
    let num := if x1 = x2 ∧ y1 = y2 then 3 * x1.toNat ^ 2 + s.block.A else y2.toNat + (P - y1.toNat)
    let den := if x1 = x2 ∧ y1 = y2 then 2 * y1.toNat else x2.toNat + (P - x1.toNat)
    s.block.locked = true → s.block.q[q1] = .holds (.aff x1 y1) → s.block.q[q2] = .holds (.aff x2 y2) → 3 ≤ P →
    x1.toNat < P → y1.toNat < P → x2.toNat < P → y2.toNat < P →
    ¬(x1 = x2 ∧ (y1.toNat + y2.toNat) % P = 0) →
    (Nat.gcd den P ≠ 1 → exec (.padd d q1 q2) s = .next (s.failedWith 0x02)) ∧
    (Nat.gcd den P = 1 →
      ∃ lam x3 y3 : Nat, lam < P ∧ x3 < P ∧ y3 < P ∧ lam * den ≡ num [MOD P] ∧
        x3 + x1.toNat + x2.toNat ≡ lam ^ 2 [MOD P] ∧ y3 + y1.toNat + lam * x3 ≡ lam * x1.toNat [MOD P] ∧
        exec (.padd d q1 q2) s = .next (s.wrotePoint d (.aff (BitVec.ofNat 544 x3) (BitVec.ofNat 544 y3))))

/-- R215 and R216: PMUL, its errors in order, writes `scalar_mul` of the point and the scalar, which is double-and-add from the most
significant bit: `INF` for 0, and for `2*k` and `2*k + 1` the double of the result for `k`, plus the point on a 1 bit. -/
def Obligations.PmulIsDoubleAndAdd : Prop :=
  (∀ (s : State) (d q1 : PointIdx) (r : DataReg),
    (s.block.locked = false → exec (.pmul d q1 r) s = .next (s.failedWith 0x12)) ∧
    (s.block.locked = true → s.block.q[q1] = .empty ∨ s.block.xv[r] = false →
      exec (.pmul d q1 r) s = .next (s.failedWith 0x11)) ∧
    (∀ p k, s.block.locked = true → s.block.q[q1] = .holds p → s.block.Holds r k →
      (∀ t, scalarMul s.block.P s.block.A p k = .ok t → exec (.pmul d q1 r) s = .next (s.wrotePoint d t)) ∧
      (∀ e, scalarMul s.block.P s.block.A p k = .error e → exec (.pmul d q1 r) s = .next (s.failedWith 0x02)))) ∧
  (∀ (P A : Nat) (S : CurvePoint) (k : Nat),
    scalarMul P A S 0 = .ok .inf ∧ scalarMul P A S 1 = .ok S ∧
    scalarMul P A S (2 * k) = (do let R ← scalarMul P A S k; groupOp P A R R) ∧
    scalarMul P A S (2 * k + 1) = (do let R ← scalarMul P A S k; let D ← groupOp P A R R; groupOp P A D S))

/-- R186, R194 and R216 ("impossible when `P` is prime"): with a prime `P`, in every state that meets the invariant, PADD and PMUL of
points always complete, and what they write is a point of the curve. -/
def Obligations.PrimePointCommandsComplete : Prop :=
  ∀ (s : State) (d q1 q2 : PointIdx) (r : DataReg) (p1 p2 : CurvePoint) (k : Nat),
    s.Inv → s.block.P.Prime → s.block.q[q1] = .holds p1 →
    (s.block.q[q2] = .holds p2 →
      ∃ t, IsCurvePoint s.block.P s.block.A s.block.B t ∧ exec (.padd d q1 q2) s = .next (s.wrotePoint d t)) ∧
    (s.block.Holds r k →
      ∃ t, IsCurvePoint s.block.P s.block.A s.block.B t ∧ exec (.pmul d q1 r) s = .next (s.wrotePoint d t))

/-- R196: when `group_op` of points of the curve returns, its result is a point of the curve, for every odd `P >= 3`, prime or not;
the same for `group_inverse`. -/
def Obligations.GroupOperationsStayOnCurve : Prop :=
  ∀ (P A B : Nat) (S T : CurvePoint), 3 ≤ P → P < 2 ^ 544 → IsCurvePoint P A B S → IsCurvePoint P A B T →
    (∀ R, groupOp P A S T = .ok R → IsCurvePoint P A B R) ∧ IsCurvePoint P A B (groupInverse P S)

/-- R197: identity and inverse for every configuration, commutativity for every configuration, associativity for a prime `P` and a
non-singular curve. -/
def Obligations.GroupLawsHold : Prop :=
  ∀ (P A B : Nat) (S T U : CurvePoint), 3 ≤ P → P < 2 ^ 544 →
    IsCurvePoint P A B S → IsCurvePoint P A B T → IsCurvePoint P A B U →
    groupOp P A S .inf = .ok S ∧ groupOp P A S (groupInverse P S) = .ok .inf ∧ groupOp P A S T = groupOp P A T S ∧
    (P.Prime → (4 * A ^ 3 + 27 * B ^ 2) % P ≠ 0 →
      (do let R ← groupOp P A S T; groupOp P A R U) = (do let R ← groupOp P A T U; groupOp P A S R))

/-- R218: for a prime `P` and a non-singular curve, `scalar_mul(S, j + k)` is the sum of `scalar_mul(S, j)` and `scalar_mul(S, k)`;
`scalar_mul(S, 0)` is `INF` for every configuration. -/
def Obligations.ScalarMultiplicationIsAdditive : Prop :=
  (∀ (P A B : Nat) (S : CurvePoint) (j k : Nat), 3 ≤ P → P < 2 ^ 544 → IsCurvePoint P A B S → P.Prime →
    (4 * A ^ 3 + 27 * B ^ 2) % P ≠ 0 →
    scalarMul P A S (j + k) = (do let R ← scalarMul P A S j; let T ← scalarMul P A S k; groupOp P A R T)) ∧
  (∀ (P A : Nat) (S : CurvePoint), scalarMul P A S 0 = .ok .inf)

/-! ### Frames -/

/-- What the commands that write a data register (LD, LI, MOV, MADD, MNEG, MMUL, MINV, MPOW, MSQRT, PGETX, PGETY) leave unchanged:
every other data register and its flag, every point register, the configuration, `DIN`, `DOUT` and so every word of the two
buffers on the bus, `CMDREG`; the latch unless the command fails, and then the destination too. -/
def Obligations.DataRegisterCommandsFrame : Prop :=
  ∀ (i : Instr) (d : DataReg) (s t : State), destData i = some d → exec i s = .next t →
    t.pending = s.pending ∧ t.observed = s.observed ∧
    (∀ r : DataReg, r ≠ d → t.block.x[r] = s.block.x[r] ∧ t.block.xv[r] = s.block.xv[r]) ∧
    t.block.q = s.block.q ∧ t.block.cfg = s.block.cfg ∧ t.block.cv = s.block.cv ∧ t.block.locked = s.block.locked ∧
    t.block.din = s.block.din ∧ t.block.dout = s.block.dout ∧ t.block.cmdreg = s.block.cmdreg ∧
    ((t.block.err = s.block.err ∧ t.block.errcmd = s.block.errcmd) ∨
     (t.block.err ∈ errorCodes ∧ t.block.errcmd = s.block.cmdreg ∧ t.block.x = s.block.x ∧ t.block.xv = s.block.xv)) ∧
    (∀ offset, 0x100 ≤ offset → offset < 0x200 → t.block.busRead offset = s.block.busRead offset)

/-- What the commands that write a point register (PSET, PINF, PLDG, PMOV, PADD, PNEG, PMUL) leave unchanged: every other point
register, every data register and its flag, the configuration, the buffers on the bus, `CMDREG`; the latch unless the command
fails, and then the destination too. -/
def Obligations.PointRegisterCommandsFrame : Prop :=
  ∀ (i : Instr) (d : PointIdx) (s t : State), destPoint i = some d → exec i s = .next t →
    t.pending = s.pending ∧ t.observed = s.observed ∧
    (∀ r : PointIdx, r ≠ d → t.block.q[r] = s.block.q[r]) ∧
    t.block.x = s.block.x ∧ t.block.xv = s.block.xv ∧
    t.block.cfg = s.block.cfg ∧ t.block.cv = s.block.cv ∧ t.block.locked = s.block.locked ∧
    t.block.din = s.block.din ∧ t.block.dout = s.block.dout ∧ t.block.cmdreg = s.block.cmdreg ∧
    ((t.block.err = s.block.err ∧ t.block.errcmd = s.block.errcmd) ∨
     (t.block.err ∈ errorCodes ∧ t.block.errcmd = s.block.cmdreg ∧ t.block.q = s.block.q)) ∧
    (∀ offset, 0x100 ≤ offset → offset < 0x200 → t.block.busRead offset = s.block.busRead offset)

/-- What NOP, ST, CFGSET and COMMIT leave unchanged: every data and point register, `DIN`, `CMDREG`; `DOUT` but for ST, the fields
other than CFGSET's, `LOCKED` but for COMMIT; and every word of the buffers on the bus outside the `DOUT` words ST stores. -/
def Obligations.BufferAndConfigCommandsFrame : Prop :=
  ∀ (i : Instr) (s t : State), destData i = none → destPoint i = none → exec i s = .next t →
    t.pending = s.pending ∧ t.observed = s.observed ∧
    t.block.x = s.block.x ∧ t.block.xv = s.block.xv ∧ t.block.q = s.block.q ∧
    t.block.din = s.block.din ∧ t.block.cmdreg = s.block.cmdreg ∧
    ((∀ r, i ≠ .st r) → t.block.dout = s.block.dout) ∧
    (∀ sel : CfgSel, (∀ r, i ≠ .cfgset sel r) →
      t.block.cfg[sel.index] = s.block.cfg[sel.index] ∧ t.block.cv[sel.index] = s.block.cv[sel.index]) ∧
    (i ≠ .commit → t.block.locked = s.block.locked) ∧
    ((t.block.err = s.block.err ∧ t.block.errcmd = s.block.errcmd) ∨
     (t.block.err ∈ errorCodes ∧ t.block.errcmd = s.block.cmdreg ∧ t.block.dout = s.block.dout ∧
      t.block.cfg = s.block.cfg ∧ t.block.cv = s.block.cv ∧ t.block.locked = s.block.locked)) ∧
    (∀ offset, 0x100 ≤ offset → offset < 0x200 →
      ((∀ r, i ≠ .st r) ∨ offset < 0x180 ∨ 0x180 + 4 * 17 ≤ offset) →
      t.block.busRead offset = s.block.busRead offset)

/-! ### Rules of the whole machine -/

/-- The invariant holds right after reset. -/
def Obligations.ResetMeetsTheInvariant : Prop := State.reset.Inv

/-- Every step keeps the invariant: the point registers hold nothing or points of the committed curve (`EMPTY` while unlocked), what
COMMIT checked stays true while `LOCKED = 1`, `ERR` holds a legal code, and the latch is consistent. -/
def Obligations.StepKeepsTheInvariant : Prop :=
  ∀ s t : State, s.Inv → step s = .next t → t.Inv

/-- R21 ("cannot be observed by any sequence of transactions"): two states that differ only in the values of invalid data registers
and configuration fields make the same steps, and stay so: what the host reads is the same. -/
def Obligations.InvalidValuesAreUnobservable : Prop :=
  ∀ s s' : State, s.Inv → s.SameObservable s' →
    (∀ t, step s = .next t → ∃ t', step s' = .next t' ∧ t.SameObservable t') ∧
    (∀ r, step s = .refused r → step s' = .refused r)

/-- R26, whole: `LOCKED` is 0 after reset; the engine's step of COMMIT sets it to 1 when its checks pass, and a step that sets it is the
engine's step of a COMMIT whose checks have passed; nothing but reset clears it; while it is 1 no configuration field changes. -/
def Obligations.LockedConfigurationIsFrozen : Prop :=
  Block.reset.locked = false ∧
  ∀ s t : State, step s = .next t →
    (s.block.locked = true →
      (s.ResetNext ∧ t.block.IsReset) ∨
      (t.block.locked = true ∧ t.block.cfg = s.block.cfg ∧ t.block.cv = s.block.cv)) ∧
    (s.block.locked = false → t.block.locked = true → s.Runs .commit ∧ t.block.ConfigChecked) ∧
    (s.block.locked = false → s.Runs .commit → Block.ConfigChecked { s.block with locked := true } → t.block.locked = true)

/-- R21, R23, R25: over every step but a reset, a valid flag that is 1 stays 1 and a point register that is not `EMPTY` stays so; a data
register and its flag change only in the engine's step of a command with that destination, a point register likewise, and a
configuration field and its flag only in the engine's step of the CFGSET of that field while `LOCKED = 0`. -/
def Obligations.OnlyResetClearsValidFlags : Prop :=
  ∀ s t : State, step s = .next t → (s.ResetNext ∧ t.block.IsReset) ∨
    ((∀ r : DataReg, s.block.xv[r] = true → t.block.xv[r] = true) ∧
     (∀ r : PointIdx, s.block.q[r] ≠ .empty → t.block.q[r] ≠ .empty) ∧
     (∀ sel : CfgSel, s.block.cv[sel.index] = true → t.block.cv[sel.index] = true) ∧
     (∀ r : DataReg, t.block.x[r] ≠ s.block.x[r] ∨ t.block.xv[r] ≠ s.block.xv[r] → ∃ i, s.Runs i ∧ destData i = some r) ∧
     (∀ r : PointIdx, t.block.q[r] ≠ s.block.q[r] → ∃ i, s.Runs i ∧ destPoint i = some r) ∧
     (∀ sel : CfgSel, t.block.cfg[sel.index] ≠ s.block.cfg[sel.index] ∨ t.block.cv[sel.index] ≠ s.block.cv[sel.index] →
       s.block.locked = false ∧ ∃ r, s.Runs (.cfgset sel r)))

/-- R67: a read of `DOUT[i]` returns its current value at any time. The engine's step that completes an ST leaves in every `DOUT[i]`, all
at once, the limb `i` of the valid source register; a reset leaves 0; `DOUT` changes in no other step. -/
def Obligations.DoutChangesOnlyByStOrReset : Prop :=
  (∀ (b : Block) (i : Fin 17), b.busRead (0x180 + 4 * i.val) = b.dout[i]) ∧
  ∀ s t : State, step s = .next t →
    (∀ r : DataReg, s.Runs (.st r) → s.block.xv[r] = true →
      ∀ i : Fin 17, (t.block.dout[i]).toNat = (s.block.x[r]).toNat / 2 ^ (32 * i.val) % 2 ^ 32) ∧
    (s.ResetNext → ∀ i : Fin 17, t.block.dout[i] = 0) ∧
    (t.block.dout ≠ s.block.dout → s.ResetNext ∨ ∃ r, s.Runs (.st r) ∧ s.block.xv[r] = true)

/-- R242: while an error is latched no command is accepted or run. A reset resets the block; a write to `ERRCLR` clears the latch and
nothing else; a write of `v` to `DIN[i]` makes exactly that word `v`; a read is observed; and every step but these three leaves the
whole block as it is, a write to `CMD` and the engine's turn among them. -/
def Obligations.LatchedErrorBlocksCommands : Prop :=
  ∀ s t : State, s.Inv → s.block.err ≠ 0 → step s = .next t →
    (s.ResetNext → t.block.IsReset) ∧
    (∀ v, s.HostWrites 0x00C v → t.block = { s.block with err := 0, errcmd := 0 }) ∧
    (∀ (i : Fin 17) (v : Word), s.HostWrites (0x100 + 4 * i.val) v →
      t.block = { s.block with din := s.block.din.set i v }) ∧
    (∀ offset, s.HostReads offset → t.observed = s.observed ++ [s.block.busRead offset]) ∧
    (¬s.ResetNext → (∀ v, ¬s.HostWrites 0x00C v) → (∀ (i : Fin 17) (v : Word), ¬s.HostWrites (0x100 + 4 * i.val) v) →
      t.block = s.block)

/-! ### Reset, the latch and the bus -/

/-- R41: the reset values the spec gives, in the state right after reset; the values of `x` and `cfg` it leaves unspecified are not
named, and a block with others of them agrees with this one on all that can be observed. -/
def Obligations.ResetValues : Prop :=
  let b := State.reset.block
  (∀ r : DataReg, b.xv[r] = false) ∧ (∀ r : PointIdx, b.q[r] = .empty) ∧ (∀ sel : CfgSel, b.cv[sel.index] = false) ∧
  b.locked = false ∧ (∀ i : Fin 17, b.din[i] = 0 ∧ b.dout[i] = 0) ∧
  b.cmdreg = 0 ∧ b.busy = false ∧ b.err = 0 ∧ b.errcmd = 0 ∧
  (∀ c : Block, c.IsReset → b.SameObservable c ∧ ∀ offset, b.busRead offset = c.busRead offset)

/-- R37 and R270: a write to `SRST` with bit 0 set and the hardware reset input have the same effect from every state, one block that
holds the values of R41 (the values R41 leaves unspecified are not named here); a write with bit 0 clear has no effect; a read
returns 0. The reset state of the model is that block. -/
def Obligations.BothResetsGiveTheResetState : Prop :=
  ∃ b : Block, b.IsReset ∧ State.reset.block = b ∧
    (∀ (s : State) (rest : List Event) (v : Word), s.pending = .host (.write 0x01C 4 v) :: rest →
      (v.getLsbD 0 = true → step s = .next { s with pending := rest, block := b }) ∧
      (v.getLsbD 0 = false → step s = .next { s with pending := rest })) ∧
    (∀ (s : State) (rest : List Event), s.pending = .hardReset :: rest →
      step s = .next { s with pending := rest, block := b }) ∧
    (∀ c : Block, c.busRead 0x01C = 0)

/-- R33 and R241: a write of any value to `ERRCLR` while `BUSY = 0` clears the latch and changes nothing else, and then the next `CMD`
write is accepted; while `BUSY = 1` it has no effect, and in a state that meets the invariant no error is latched then; a read
returns 0. -/
def Obligations.ErrclrReturnsFromTheError : Prop :=
  (∀ (s : State) (rest : List Event) (v c : Word), s.pending = .host (.write 0x00C 4 v) :: rest →
    (s.block.busy = true → step s = .next { s with pending := rest } ∧ (s.Inv → s.block.err = 0)) ∧
    (s.block.busy = false → ∃ t, step s = .next t ∧
      t = { s with pending := rest, block := { s.block with err := 0, errcmd := 0 } } ∧
      (∀ rest', rest = .host (.write 0x000 4 c) :: rest' →
        step t = .next
          { t with pending := rest', block := { s.block with err := 0, errcmd := 0, cmdreg := c, busy := true } }))) ∧
  (∀ b : Block, b.busRead 0x00C = 0)

/-- R66: a write to `DIN[i]` while `BUSY = 0` sets that word and nothing else, an error latched or not; while `BUSY = 1` it is dropped; a
read returns the current value; the words from `LIMBS` to 31 read 0 and ignore writes. -/
def Obligations.DinWritesAndReads : Prop :=
  (∀ (s : State) (rest : List Event) (i : Fin 17) (v : Word), s.pending = .host (.write (0x100 + 4 * i.val) 4 v) :: rest →
    (s.block.busy = false →
      step s = .next { s with pending := rest, block := { s.block with din := s.block.din.set i v } }) ∧
    (s.block.busy = true → step s = .next { s with pending := rest })) ∧
  (∀ (b : Block) (i : Fin 17), b.busRead (0x100 + 4 * i.val) = b.din[i]) ∧
  (∀ (b : Block) (i : Nat) (v : Word), 17 ≤ i → i < 32 →
    b.busRead (0x100 + 4 * i) = 0 ∧ b.busWrite (0x100 + 4 * i) v = b)

/-- R62: a performed read changes no state and the host observes the word; the word of each offset. -/
def Obligations.BusReadsReturnTheMap : Prop :=
  (∀ (s : State) (rest : List Event) (offset : Nat), offset % 4 = 0 → offset < 0x200 →
    s.pending = .host (.read offset 4) :: rest →
    step s = .next { s with pending := rest, observed := s.observed ++ [s.block.busRead offset] }) ∧
  (∀ b : Block,
    b.busRead 0x000 = b.cmdreg ∧ b.busRead 0x004 = b.status ∧ b.busRead 0x008 = b.errcmd ∧ b.busRead 0x00C = 0 ∧
    b.busRead 0x010 = b.rvalid ∧ b.busRead 0x014 = b.pstat ∧ b.busRead 0x018 = 0x00004811 ∧ b.busRead 0x01C = 0 ∧
    (∀ offset, 0x020 ≤ offset → offset < 0x100 → b.busRead offset = 0) ∧
    (∀ i : Fin 17, b.busRead (0x100 + 4 * i.val) = b.din[i] ∧ b.busRead (0x180 + 4 * i.val) = b.dout[i]) ∧
    (∀ i, 17 ≤ i → i < 32 → b.busRead (0x100 + 4 * i) = 0 ∧ b.busRead (0x180 + 4 * i) = 0))

/-- R63: a write to an offset other than `CMD`, `ERRCLR`, `SRST` and the `DIN` words changes no state and raises no error. -/
def Obligations.OtherBusWritesDoNothing : Prop :=
  ∀ (s : State) (rest : List Event) (offset : Nat) (v : Word), offset % 4 = 0 → offset < 0x200 →
    offset ≠ 0x000 → offset ≠ 0x00C → offset ≠ 0x01C → (offset < 0x100 ∨ 0x100 + 4 * 17 ≤ offset) →
    s.pending = .host (.write offset 4 v) :: rest → step s = .next { s with pending := rest }

/-- R31, R34, R35 and R36: the words at the four offsets bit by bit, their values right after reset, and that reading them changes
nothing. -/
def Obligations.StatusWordsBitByBit : Prop :=
  (∀ b : Block,
    (∀ i, i < 32 → (b.busRead 0x004).getLsbD i =
      if i = 0 then b.busy else if i = 1 then b.locked else if i = 2 then decide (b.err ≠ 0)
      else if 8 ≤ i ∧ i < 16 then b.err.getLsbD (i - 8) else false) ∧
    (∀ i : DataReg, (b.busRead 0x010).getLsbD i.val = b.xv[i]) ∧
    (∀ sel : CfgSel, (b.busRead 0x010).getLsbD (8 + sel.index.val) = b.cv[sel.index]) ∧
    (∀ i, 13 ≤ i → (b.busRead 0x010).getLsbD i = false) ∧
    (∀ i : PointIdx, (b.busRead 0x014).extractLsb' (2 * i.val) 2 =
      match b.q[i] with
      | .empty => 0b00
      | .holds .inf => 0b01
      | .holds (.aff _ _) => 0b10) ∧
    (∀ i, 8 ≤ i → (b.busRead 0x014).getLsbD i = false) ∧
    b.busRead 0x018 = 0x00004811 ∧
    (∀ offset ∈ [0x004, 0x010, 0x014, 0x018], b.busAccess (.read offset 4) = (b, .data (b.busRead offset)))) ∧
  Block.reset.busRead 0x004 = 0 ∧ Block.reset.busRead 0x010 = 0 ∧ Block.reset.busRead 0x014 = 0

/-- R64: an access that is not 4 bytes at an aligned offset inside the window is not performed: no state change, an error response,
and no meaning in a run (the step refuses it); every other access is performed. -/
def Obligations.UnperformedAccessIsRefused : Prop :=
  ∀ (s : State) (rest : List Event) (offset size : Nat) (v : Word),
    ((size ≠ 4 ∨ offset % 4 ≠ 0 ∨ 0x200 ≤ offset) →
      s.block.busAccess (.read offset size) = (s.block, .errorResponse) ∧
      s.block.busAccess (.write offset size v) = (s.block, .errorResponse) ∧
      (s.pending = .host (.read offset size) :: rest ∨ s.pending = .host (.write offset size v) :: rest →
        step s = .refused .busAccessNotPerformed)) ∧
    (size = 4 → offset % 4 = 0 → offset < 0x200 →
      s.pending = .host (.read offset size) :: rest ∨ s.pending = .host (.write offset size v) :: rest →
      ∃ t, step s = .next t)

/-- R69: what a host transaction does while `BUSY = 1`: a read is performed and `STATUS.BUSY` reads 1; a write of 1 to `SRST` bit 0 resets;
every other write changes nothing. -/
def Obligations.WhileBusyTheHostOnlyReadsOrResets : Prop :=
  ∀ (s : State) (rest : List Event) (offset : Nat) (v : Word), s.block.busy = true → offset % 4 = 0 → offset < 0x200 →
    (s.pending = .host (.read offset 4) :: rest →
      step s = .next { s with pending := rest, observed := s.observed ++ [s.block.busRead offset] }) ∧
    (s.block.busRead 0x004).getLsbD 0 = true ∧
    (s.pending = .host (.write offset 4 v) :: rest → ¬(offset = 0x01C ∧ v.getLsbD 0 = true) →
      step s = .next { s with pending := rest }) ∧
    (s.pending = .host (.write 0x01C 4 v) :: rest → v.getLsbD 0 = true →
      ∃ b : Block, b.IsReset ∧ step s = .next { s with pending := rest, block := b })

/-- R65, R121, R122: the words ST leaves in `DOUT`, written to `DIN`, are loaded by LD as the same value. -/
def Obligations.StoredLimbsLoadBack : Prop :=
  ∀ (s t : State) (r d : DataReg), s.block.xv[r] = true → exec (.st r) s = .next t →
    exec (.ld d) { t with block := { t.block with din := t.block.dout } } =
      .next (State.wroteData { t with block := { t.block with din := t.block.dout } } d s.block.x[r])
end

