-- ==== Sys2Proof/Laws/State.lean ====
section
/-! SUPPORT. One lemma per field of the block per update (Machine/Ops.lean), each true by unfolding, so that no later proof
unfolds a record update. -/

namespace Sys2Proof.Machine

variable (b : Block)

/-! ### `raise` -/

@[simp] theorem Block.raise_x (e : ErrorCode) : (b.raise e).x = b.x := rfl
@[simp] theorem Block.raise_xv (e : ErrorCode) : (b.raise e).xv = b.xv := rfl
@[simp] theorem Block.raise_q (e : ErrorCode) : (b.raise e).q = b.q := rfl
@[simp] theorem Block.raise_cfg (e : ErrorCode) : (b.raise e).cfg = b.cfg := rfl
@[simp] theorem Block.raise_cv (e : ErrorCode) : (b.raise e).cv = b.cv := rfl
@[simp] theorem Block.raise_locked (e : ErrorCode) : (b.raise e).locked = b.locked := rfl
@[simp] theorem Block.raise_din (e : ErrorCode) : (b.raise e).din = b.din := rfl
@[simp] theorem Block.raise_dout (e : ErrorCode) : (b.raise e).dout = b.dout := rfl
@[simp] theorem Block.raise_cmdreg (e : ErrorCode) : (b.raise e).cmdreg = b.cmdreg := rfl
@[simp] theorem Block.raise_busy (e : ErrorCode) : (b.raise e).busy = false := rfl
@[simp] theorem Block.raise_err (e : ErrorCode) : (b.raise e).err = e.code := rfl
@[simp] theorem Block.raise_errcmd (e : ErrorCode) : (b.raise e).errcmd = b.cmdreg := rfl

/-! ### `clearError` -/

@[simp] theorem Block.clearError_x : b.clearError.x = b.x := rfl
@[simp] theorem Block.clearError_xv : b.clearError.xv = b.xv := rfl
@[simp] theorem Block.clearError_q : b.clearError.q = b.q := rfl
@[simp] theorem Block.clearError_cfg : b.clearError.cfg = b.cfg := rfl
@[simp] theorem Block.clearError_cv : b.clearError.cv = b.cv := rfl
@[simp] theorem Block.clearError_locked : b.clearError.locked = b.locked := rfl
@[simp] theorem Block.clearError_din : b.clearError.din = b.din := rfl
@[simp] theorem Block.clearError_dout : b.clearError.dout = b.dout := rfl
@[simp] theorem Block.clearError_cmdreg : b.clearError.cmdreg = b.cmdreg := rfl
@[simp] theorem Block.clearError_busy : b.clearError.busy = b.busy := rfl
@[simp] theorem Block.clearError_err : b.clearError.err = 0 := rfl
@[simp] theorem Block.clearError_errcmd : b.clearError.errcmd = 0 := rfl

/-! ### `issue` -/

@[simp] theorem Block.issue_x (c : Word) : (b.issue c).x = b.x := rfl
@[simp] theorem Block.issue_xv (c : Word) : (b.issue c).xv = b.xv := rfl
@[simp] theorem Block.issue_q (c : Word) : (b.issue c).q = b.q := rfl
@[simp] theorem Block.issue_cfg (c : Word) : (b.issue c).cfg = b.cfg := rfl
@[simp] theorem Block.issue_cv (c : Word) : (b.issue c).cv = b.cv := rfl
@[simp] theorem Block.issue_locked (c : Word) : (b.issue c).locked = b.locked := rfl
@[simp] theorem Block.issue_din (c : Word) : (b.issue c).din = b.din := rfl
@[simp] theorem Block.issue_dout (c : Word) : (b.issue c).dout = b.dout := rfl
@[simp] theorem Block.issue_cmdreg (c : Word) : (b.issue c).cmdreg = c := rfl
@[simp] theorem Block.issue_busy (c : Word) : (b.issue c).busy = true := rfl
@[simp] theorem Block.issue_err (c : Word) : (b.issue c).err = b.err := rfl
@[simp] theorem Block.issue_errcmd (c : Word) : (b.issue c).errcmd = b.errcmd := rfl

/-! ### `writeField` -/

@[simp] theorem Block.writeField_x (sel : CfgSel) (v : Value) : (b.writeField sel v).x = b.x := rfl
@[simp] theorem Block.writeField_xv (sel : CfgSel) (v : Value) : (b.writeField sel v).xv = b.xv := rfl
@[simp] theorem Block.writeField_q (sel : CfgSel) (v : Value) : (b.writeField sel v).q = b.q := rfl
@[simp] theorem Block.writeField_cfg (sel : CfgSel) (v : Value) : (b.writeField sel v).cfg = b.cfg.set sel.index v := rfl
@[simp] theorem Block.writeField_cv (sel : CfgSel) (v : Value) : (b.writeField sel v).cv = b.cv.set sel.index true := rfl
@[simp] theorem Block.writeField_locked (sel : CfgSel) (v : Value) : (b.writeField sel v).locked = b.locked := rfl
@[simp] theorem Block.writeField_din (sel : CfgSel) (v : Value) : (b.writeField sel v).din = b.din := rfl
@[simp] theorem Block.writeField_dout (sel : CfgSel) (v : Value) : (b.writeField sel v).dout = b.dout := rfl
@[simp] theorem Block.writeField_cmdreg (sel : CfgSel) (v : Value) : (b.writeField sel v).cmdreg = b.cmdreg := rfl
@[simp] theorem Block.writeField_busy (sel : CfgSel) (v : Value) : (b.writeField sel v).busy = b.busy := rfl
@[simp] theorem Block.writeField_err (sel : CfgSel) (v : Value) : (b.writeField sel v).err = b.err := rfl
@[simp] theorem Block.writeField_errcmd (sel : CfgSel) (v : Value) : (b.writeField sel v).errcmd = b.errcmd := rfl

/-! ### `lock` -/

@[simp] theorem Block.lock_x : b.lock.x = b.x := rfl
@[simp] theorem Block.lock_xv : b.lock.xv = b.xv := rfl
@[simp] theorem Block.lock_q : b.lock.q = b.q := rfl
@[simp] theorem Block.lock_cfg : b.lock.cfg = b.cfg := rfl
@[simp] theorem Block.lock_cv : b.lock.cv = b.cv := rfl
@[simp] theorem Block.lock_locked : b.lock.locked = true := rfl
@[simp] theorem Block.lock_din : b.lock.din = b.din := rfl
@[simp] theorem Block.lock_dout : b.lock.dout = b.dout := rfl
@[simp] theorem Block.lock_cmdreg : b.lock.cmdreg = b.cmdreg := rfl
@[simp] theorem Block.lock_busy : b.lock.busy = b.busy := rfl
@[simp] theorem Block.lock_err : b.lock.err = b.err := rfl
@[simp] theorem Block.lock_errcmd : b.lock.errcmd = b.errcmd := rfl

/-! ### `writeData` -/

@[simp] theorem Block.writeData_x (d : DataReg) (v : Value) : (b.writeData d v).x = b.x.set d v := rfl
@[simp] theorem Block.writeData_xv (d : DataReg) (v : Value) : (b.writeData d v).xv = b.xv.set d true := rfl
@[simp] theorem Block.writeData_q (d : DataReg) (v : Value) : (b.writeData d v).q = b.q := rfl
@[simp] theorem Block.writeData_cfg (d : DataReg) (v : Value) : (b.writeData d v).cfg = b.cfg := rfl
@[simp] theorem Block.writeData_cv (d : DataReg) (v : Value) : (b.writeData d v).cv = b.cv := rfl
@[simp] theorem Block.writeData_locked (d : DataReg) (v : Value) : (b.writeData d v).locked = b.locked := rfl
@[simp] theorem Block.writeData_din (d : DataReg) (v : Value) : (b.writeData d v).din = b.din := rfl
@[simp] theorem Block.writeData_dout (d : DataReg) (v : Value) : (b.writeData d v).dout = b.dout := rfl
@[simp] theorem Block.writeData_cmdreg (d : DataReg) (v : Value) : (b.writeData d v).cmdreg = b.cmdreg := rfl
@[simp] theorem Block.writeData_busy (d : DataReg) (v : Value) : (b.writeData d v).busy = b.busy := rfl
@[simp] theorem Block.writeData_err (d : DataReg) (v : Value) : (b.writeData d v).err = b.err := rfl
@[simp] theorem Block.writeData_errcmd (d : DataReg) (v : Value) : (b.writeData d v).errcmd = b.errcmd := rfl

/-! ### `writePoint` -/

@[simp] theorem Block.writePoint_x (d : PointIdx) (p : CurvePoint) : (b.writePoint d p).x = b.x := rfl
@[simp] theorem Block.writePoint_xv (d : PointIdx) (p : CurvePoint) : (b.writePoint d p).xv = b.xv := rfl
@[simp] theorem Block.writePoint_q (d : PointIdx) (p : CurvePoint) : (b.writePoint d p).q = b.q.set d (.holds p) := rfl
@[simp] theorem Block.writePoint_cfg (d : PointIdx) (p : CurvePoint) : (b.writePoint d p).cfg = b.cfg := rfl
@[simp] theorem Block.writePoint_cv (d : PointIdx) (p : CurvePoint) : (b.writePoint d p).cv = b.cv := rfl
@[simp] theorem Block.writePoint_locked (d : PointIdx) (p : CurvePoint) : (b.writePoint d p).locked = b.locked := rfl
@[simp] theorem Block.writePoint_din (d : PointIdx) (p : CurvePoint) : (b.writePoint d p).din = b.din := rfl
@[simp] theorem Block.writePoint_dout (d : PointIdx) (p : CurvePoint) : (b.writePoint d p).dout = b.dout := rfl
@[simp] theorem Block.writePoint_cmdreg (d : PointIdx) (p : CurvePoint) : (b.writePoint d p).cmdreg = b.cmdreg := rfl
@[simp] theorem Block.writePoint_busy (d : PointIdx) (p : CurvePoint) : (b.writePoint d p).busy = b.busy := rfl
@[simp] theorem Block.writePoint_err (d : PointIdx) (p : CurvePoint) : (b.writePoint d p).err = b.err := rfl
@[simp] theorem Block.writePoint_errcmd (d : PointIdx) (p : CurvePoint) : (b.writePoint d p).errcmd = b.errcmd := rfl

/-! ### `writeDout` -/

@[simp] theorem Block.writeDout_x (w : Vector Word Config.limbs) : (b.writeDout w).x = b.x := rfl
@[simp] theorem Block.writeDout_xv (w : Vector Word Config.limbs) : (b.writeDout w).xv = b.xv := rfl
@[simp] theorem Block.writeDout_q (w : Vector Word Config.limbs) : (b.writeDout w).q = b.q := rfl
@[simp] theorem Block.writeDout_cfg (w : Vector Word Config.limbs) : (b.writeDout w).cfg = b.cfg := rfl
@[simp] theorem Block.writeDout_cv (w : Vector Word Config.limbs) : (b.writeDout w).cv = b.cv := rfl
@[simp] theorem Block.writeDout_locked (w : Vector Word Config.limbs) : (b.writeDout w).locked = b.locked := rfl
@[simp] theorem Block.writeDout_din (w : Vector Word Config.limbs) : (b.writeDout w).din = b.din := rfl
@[simp] theorem Block.writeDout_dout (w : Vector Word Config.limbs) : (b.writeDout w).dout = w := rfl
@[simp] theorem Block.writeDout_cmdreg (w : Vector Word Config.limbs) : (b.writeDout w).cmdreg = b.cmdreg := rfl
@[simp] theorem Block.writeDout_busy (w : Vector Word Config.limbs) : (b.writeDout w).busy = b.busy := rfl
@[simp] theorem Block.writeDout_err (w : Vector Word Config.limbs) : (b.writeDout w).err = b.err := rfl
@[simp] theorem Block.writeDout_errcmd (w : Vector Word Config.limbs) : (b.writeDout w).errcmd = b.errcmd := rfl

/-! ### `writeDin` -/

@[simp] theorem Block.writeDin_x (i : Fin Config.limbs) (w : Word) : (b.writeDin i w).x = b.x := rfl
@[simp] theorem Block.writeDin_xv (i : Fin Config.limbs) (w : Word) : (b.writeDin i w).xv = b.xv := rfl
@[simp] theorem Block.writeDin_q (i : Fin Config.limbs) (w : Word) : (b.writeDin i w).q = b.q := rfl
@[simp] theorem Block.writeDin_cfg (i : Fin Config.limbs) (w : Word) : (b.writeDin i w).cfg = b.cfg := rfl
@[simp] theorem Block.writeDin_cv (i : Fin Config.limbs) (w : Word) : (b.writeDin i w).cv = b.cv := rfl
@[simp] theorem Block.writeDin_locked (i : Fin Config.limbs) (w : Word) : (b.writeDin i w).locked = b.locked := rfl
@[simp] theorem Block.writeDin_din (i : Fin Config.limbs) (w : Word) : (b.writeDin i w).din = b.din.set i w := rfl
@[simp] theorem Block.writeDin_dout (i : Fin Config.limbs) (w : Word) : (b.writeDin i w).dout = b.dout := rfl
@[simp] theorem Block.writeDin_cmdreg (i : Fin Config.limbs) (w : Word) : (b.writeDin i w).cmdreg = b.cmdreg := rfl
@[simp] theorem Block.writeDin_busy (i : Fin Config.limbs) (w : Word) : (b.writeDin i w).busy = b.busy := rfl
@[simp] theorem Block.writeDin_err (i : Fin Config.limbs) (w : Word) : (b.writeDin i w).err = b.err := rfl
@[simp] theorem Block.writeDin_errcmd (i : Fin Config.limbs) (w : Word) : (b.writeDin i w).errcmd = b.errcmd := rfl

end Sys2Proof.Machine
end

