-- ==== Sys2Proof/Laws/Bus.lean ====
section
/-! SUPPORT. What a bus transaction and a turn can do, said once. -/

namespace Sys2Proof.Machine

/-- What `windowReg_offset` says of a register that stands at `offset`. -/
def StandsAt (offset : Nat) (r : WindowReg) : Prop :=
  (r = .cmd → offset = 0x000) ∧ (r = .errclr → offset = 0x00C) ∧ (r = .srst → offset = 0x01C) ∧
    ∀ i, r = .din i → offset = 0x100 + 4 * i.val

/-- The aligned offset at which each register that a write acts on stands (20_memory.md R61). -/
theorem windowReg_offset (offset : Nat) (h : offset % 4 = 0) : StandsAt offset (windowReg offset) := by
  have other : ∀ r : WindowReg, r ≠ .cmd → r ≠ .errclr → r ≠ .srst → (∀ i, r ≠ .din i) → StandsAt offset r :=
    fun r h1 h2 h3 h4 => ⟨fun e => absurd e h1, fun e => absurd e h2, fun e => absurd e h3, fun i e => absurd e (h4 i)⟩
  unfold windowReg
  dsimp only
  refine iteInduction (fun h0 => ⟨fun _ => by omega, nofun, nofun, nofun⟩) fun _ => ?_
  refine iteInduction (fun _ => other _ nofun nofun nofun nofun) fun _ => ?_
  refine iteInduction (fun _ => other _ nofun nofun nofun nofun) fun _ => ?_
  refine iteInduction (fun _ => ⟨nofun, fun _ => by omega, nofun, nofun⟩) fun _ => ?_
  refine iteInduction (fun _ => other _ nofun nofun nofun nofun) fun _ => ?_
  refine iteInduction (fun _ => other _ nofun nofun nofun nofun) fun _ => ?_
  refine iteInduction (fun _ => other _ nofun nofun nofun nofun) fun _ => ?_
  refine iteInduction (fun _ => ⟨nofun, nofun, fun _ => by omega, nofun⟩) fun _ => ?_
  refine iteInduction (fun _ => other _ nofun nofun nofun nofun) fun _ => ?_
  by_cases hd : offset / 4 - 0x40 < Config.limbs
  · rw [dif_pos hd]
    refine ⟨nofun, nofun, nofun, fun i e => ?_⟩
    obtain rfl := WindowReg.din.inj e
    show offset = 0x100 + 4 * (offset / 4 - 0x40)
    omega
  rw [dif_neg hd]
  refine iteInduction (fun _ => other _ nofun nofun nofun nofun) fun _ => ?_
  by_cases ho : offset / 4 - 0x60 < Config.limbs
  · rw [dif_pos ho]
    exact other _ nofun nofun nofun nofun
  · rw [dif_neg ho]
    exact other _ nofun nofun nofun nofun

/-- All that a performed bus write can do to the block, with the register it is written to. -/
theorem Block.busWrite_cases (b : Block) (offset : Nat) (v : Word) :
    b.busWrite offset v = b ∨
      (windowReg offset = .srst ∧ v.getLsbD 0 = true ∧ b.busWrite offset v = Block.reset) ∨
      (windowReg offset = .cmd ∧ b.busy = false ∧ b.err = 0 ∧ b.busWrite offset v = b.issue v) ∨
      (windowReg offset = .errclr ∧ b.busy = false ∧ b.busWrite offset v = b.clearError) ∨
      (∃ i, windowReg offset = .din i ∧ b.busy = false ∧ b.busWrite offset v = b.writeDin i v) := by
  unfold Block.busWrite
  cases windowReg offset with
  | cmd =>
    simp only [Block.writeCmd]
    split
    · rename_i h
      simp only [Bool.and_eq_true, Bool.not_eq_true', beq_iff_eq] at h
      exact .inr (.inr (.inl ⟨trivial, h.1, h.2, rfl⟩))
    · exact .inl rfl
  | errclr =>
    simp only [Block.writeErrclr]
    split
    · exact .inl rfl
    · rename_i h
      exact .inr (.inr (.inr (.inl ⟨trivial, by simpa using h, rfl⟩)))
  | srst =>
    simp only [Block.writeSrst]
    split
    · rename_i h
      exact .inr (.inl ⟨trivial, h, rfl⟩)
    · exact .inl rfl
  | din i =>
    dsimp only [Block.writeDinBus]
    split
    · exact .inl rfl
    · rename_i h
      exact .inr (.inr (.inr (.inr ⟨i, rfl, by simpa using h, rfl⟩)))
  | status => exact .inl rfl
  | errcmd => exact .inl rfl
  | rvalid => exact .inl rfl
  | pstat => exact .inl rfl
  | param => exact .inl rfl
  | dout i => exact .inl rfl
  | reserved => exact .inl rfl

/-- All that a host transaction can do when it is performed: it is a word access, aligned and inside the window; a read leaves the
block and is recorded, a write is `busWrite`. -/
theorem State.hostAccess_cases (s t : State) (x : Transaction) (h : s.hostAccess x = .next t) :
    t.pending = s.pending ∧
      ((∃ offset, x = .read offset 4 ∧ t.block = s.block ∧ t.observed = s.observed ++ [s.block.busRead offset]) ∨
       (∃ offset v, x = .write offset 4 v ∧ offset % 4 = 0 ∧ t.block = s.block.busWrite offset v ∧
         t.observed = s.observed)) := by
  have four : ∀ offset size, accessPerformed offset size = true → size = 4 ∧ offset % 4 = 0 := by
    intro offset size hp
    simp only [accessPerformed, Bool.and_eq_true, beq_iff_eq] at hp
    exact hp.1
  cases x with
  | read offset size =>
    simp only [State.hostAccess, Block.busAccess] at h
    cases hp : accessPerformed offset size <;> simp only [hp, if_true, if_false, Bool.false_eq_true] at h <;> cases h
    obtain ⟨rfl, _⟩ := four _ _ hp
    exact ⟨rfl, .inl ⟨offset, rfl, rfl, rfl⟩⟩
  | write offset size v =>
    simp only [State.hostAccess, Block.busAccess] at h
    cases hp : accessPerformed offset size <;> simp only [hp, if_true, if_false, Bool.false_eq_true] at h <;> cases h
    obtain ⟨rfl, ha⟩ := four _ _ hp
    exact ⟨rfl, .inr ⟨offset, v, rfl, ha, rfl, rfl⟩⟩

/-- The engine's step is the meaning of the decoded command, or the illegal-command error. -/
theorem engineStep_cases (s : State) :
    (∃ i, decode s.block.cmdreg = .ok i ∧ engineStep s = exec i s) ∨
      (∃ m, decode s.block.cmdreg = .error m ∧ engineStep s = .next { s with block := s.block.raise .illegalCmd }) := by
  unfold engineStep
  cases h : decode s.block.cmdreg with
  | ok i => exact .inl ⟨i, rfl, rfl⟩
  | error m => exact .inr ⟨m, rfl, rfl⟩

end Sys2Proof.Machine
end

