-- ==== Sys2Proof/Laws/Ops.lean ====
section
/-! SUPPORT. One lemma for each shared operation that says everything it can do; later proofs cite these and unfold none of
the operations. -/

namespace Sys2Proof.Machine

/-! ### Completing a command -/

@[simp] theorem Block.complete_ok (b b' : Block) : b.complete (.ok b') = { b' with busy := false } := rfl

@[simp] theorem Block.complete_error (b : Block) (e : ErrorCode) : b.complete (.error e) = b.raise e := rfl

/-- A completed command is never busy. -/
@[simp] theorem Block.complete_busy (b : Block) (r : Except ErrorCode Block) : (b.complete r).busy = false := by
  cases r <;> rfl

/-- All that `settle` can do: it answers a next state with the model's own fields unchanged, in which the command has either
committed its result or only set the error latch. -/
theorem State.settle_cases (s t : State) (r : Except ErrorCode Block) (h : s.settle r = .next t) :
    t.pending = s.pending ∧ t.observed = s.observed ∧
      ((∃ b, r = .ok b ∧ t.block = { b with busy := false }) ∨ (∃ e, r = .error e ∧ t.block = s.block.raise e)) := by
  cases r with
  | ok b => cases h; exact ⟨rfl, rfl, .inl ⟨b, rfl, rfl⟩⟩
  | error e => cases h; exact ⟨rfl, rfl, .inr ⟨e, rfl, rfl⟩⟩

/-- A chain of checks that succeeds has each part succeed. -/
theorem bind_ok {α β : Type} (m : Except ErrorCode α) (f : α → Except ErrorCode β) (v : β) (h : (m >>= f) = .ok v) :
    ∃ a, m = .ok a ∧ f a = .ok v := by
  cases m with
  | ok a => exact ⟨a, rfl, h⟩
  | error e => cases h

/-- A check that passes is followed by the rest of the chain. -/
@[simp] theorem ok_bind {α β : Type} (a : α) (f : α → Except ErrorCode β) : (Except.ok a >>= f) = f a := rfl

/-- A check that fails is the failure of the chain. -/
@[simp] theorem error_bind {α β : Type} (e : ErrorCode) (f : α → Except ErrorCode β) :
    ((Except.error e : Except ErrorCode α) >>= f) = .error e := rfl

/-! ### Lifecycle checks and operands -/

theorem Block.needLocked_eq_ok (b : Block) (u : Unit) : b.needLocked = .ok u ↔ b.locked = true := by
  unfold Block.needLocked; split <;> simp_all

theorem Block.needUnlocked_eq_ok (b : Block) (u : Unit) : b.needUnlocked = .ok u ↔ b.locked = false := by
  unfold Block.needUnlocked; split <;> simp_all

/-- A data register source answers the register's value, exactly when its valid flag is 1. -/
theorem Block.source_eq_ok (b : Block) (r : DataReg) (v : Value) :
    b.source r = .ok v ↔ b.xv[r] = true ∧ b.x[r] = v := by
  unfold Block.source; split <;> simp_all

theorem Block.source_eq_error (b : Block) (r : DataReg) (e : ErrorCode) :
    b.source r = .error e ↔ b.xv[r] = false ∧ e = .uninit := by
  unfold Block.source
  split <;> rename_i h
  · simp [h]
  · simpa [h] using eq_comm

/-- A point register source answers the point it holds, exactly when it holds one. -/
theorem Block.sourcePoint_eq_ok (b : Block) (r : PointIdx) (p : CurvePoint) :
    b.sourcePoint r = .ok p ↔ b.q[r] = .holds p := by
  unfold Block.sourcePoint
  cases b.q[r] <;> simp

theorem Block.sourcePoint_eq_error (b : Block) (r : PointIdx) (e : ErrorCode) :
    b.sourcePoint r = .error e ↔ b.q[r] = .empty ∧ e = .uninit := by
  unfold Block.sourcePoint
  cases b.q[r]
  · simpa using eq_comm
  · simp

/-- A modular operand answers the value as an integer, exactly when it is below `cfg.P`. -/
theorem Block.residue_eq_ok (b : Block) (v : Value) (n : Nat) :
    b.residue v = .ok n ↔ v.toNat < b.P ∧ v.toNat = n := by
  unfold Block.residue; split <;> simp_all

theorem Block.residue_eq_error (b : Block) (v : Value) (e : ErrorCode) :
    b.residue v = .error e ↔ b.P ≤ v.toNat ∧ e = .modulusMismatch := by
  unfold Block.residue
  split <;> rename_i h
  · simp only [reduceCtorEq, false_iff]; omega
  · simp only [Except.error.injEq, Nat.not_lt.mp h, true_and]; exact eq_comm

end Sys2Proof.Machine
end

