-- ==== Sys2Proof/Laws/Exec.lean ====
section
/-! SUPPORT. What a command that succeeds writes, said once for all 22 commands: one register, or one configuration field, or
`LOCKED`, or `DOUT`, or nothing (20_memory.md R70). -/

namespace Sys2Proof.Machine

/-- A command is its result, completed; and a result that succeeds is the block with the command's one write made. -/
theorem exec_writes (i : Instr) (s : State) : ∃ r : Except ErrorCode Block, exec i s = s.settle r ∧ ∀ b, r = .ok b →
    (∃ d v, destData i = some d ∧ destPoint i = none ∧ b = s.block.writeData d v) ∨
    (∃ d p, destPoint i = some d ∧ destData i = none ∧ s.block.locked = true ∧ b = s.block.writePoint d p) ∨
    (i = .nop ∧ b = s.block) ∨
    (∃ r w, i = .st r ∧ b = s.block.writeDout w) ∨
    (∃ sel r v, i = .cfgset sel r ∧ s.block.locked = false ∧ b = s.block.writeField sel v) ∨
    (i = .commit ∧ s.block.locked = false ∧ s.block.checkConfig = .ok () ∧ b = s.block.lock) := by
  cases i
  all_goals
    refine ⟨_, rfl, fun b hb => ?_⟩
  case nop => cases hb; exact .inr (.inr (.inl ⟨rfl, rfl⟩))
  case ld d => cases hb; exact .inl ⟨d, _, rfl, rfl, rfl⟩
  case li d imm12 => cases hb; exact .inl ⟨d, _, rfl, rfl, rfl⟩
  case st r =>
    obtain ⟨_, _, hb⟩ := bind_ok _ _ _ hb
    cases hb; exact .inr (.inr (.inr (.inl ⟨r, _, rfl, rfl⟩)))
  case mov d _ =>
    obtain ⟨_, _, hb⟩ := bind_ok _ _ _ hb
    cases hb; exact .inl ⟨d, _, rfl, rfl, rfl⟩
  case cfgset sel r =>
    obtain ⟨_, hl, hb⟩ := bind_ok _ _ _ hb
    obtain ⟨_, _, hb⟩ := bind_ok _ _ _ hb
    cases hb; exact .inr (.inr (.inr (.inr (.inl ⟨sel, r, _, rfl, (Block.needUnlocked_eq_ok _ _).1 hl, rfl⟩))))
  case commit =>
    obtain ⟨_, hl, hb⟩ := bind_ok _ _ _ hb
    obtain ⟨_, hc, hb⟩ := bind_ok _ _ _ hb
    cases hb; exact .inr (.inr (.inr (.inr (.inr ⟨rfl, (Block.needUnlocked_eq_ok _ _).1 hl, hc, rfl⟩))))
  case madd d _ _ | mmul d _ _ =>
    obtain ⟨_, _, hb⟩ := bind_ok _ _ _ hb
    obtain ⟨_, _, hb⟩ := bind_ok _ _ _ hb
    obtain ⟨_, _, hb⟩ := bind_ok _ _ _ hb
    obtain ⟨_, _, hb⟩ := bind_ok _ _ _ hb
    obtain ⟨_, _, hb⟩ := bind_ok _ _ _ hb
    cases hb; exact .inl ⟨d, _, rfl, rfl, rfl⟩
  case mpow d _ _ =>
    obtain ⟨_, _, hb⟩ := bind_ok _ _ _ hb
    obtain ⟨_, _, hb⟩ := bind_ok _ _ _ hb
    obtain ⟨_, _, hb⟩ := bind_ok _ _ _ hb
    obtain ⟨_, _, hb⟩ := bind_ok _ _ _ hb
    cases hb; exact .inl ⟨d, _, rfl, rfl, rfl⟩
  case mneg d _ =>
    obtain ⟨_, _, hb⟩ := bind_ok _ _ _ hb
    obtain ⟨_, _, hb⟩ := bind_ok _ _ _ hb
    obtain ⟨_, _, hb⟩ := bind_ok _ _ _ hb
    cases hb; exact .inl ⟨d, _, rfl, rfl, rfl⟩
  case minv d _ | msqrt d _ =>
    obtain ⟨_, _, hb⟩ := bind_ok _ _ _ hb
    obtain ⟨_, _, hb⟩ := bind_ok _ _ _ hb
    obtain ⟨_, _, hb⟩ := bind_ok _ _ _ hb
    obtain ⟨_, _, hb⟩ := bind_ok _ _ _ hb
    cases hb; exact .inl ⟨d, _, rfl, rfl, rfl⟩
  case pset d _ _ =>
    obtain ⟨_, hl, hb⟩ := bind_ok _ _ _ hb
    obtain ⟨_, _, hb⟩ := bind_ok _ _ _ hb
    obtain ⟨_, _, hb⟩ := bind_ok _ _ _ hb
    obtain ⟨_, _, hb⟩ := bind_ok _ _ _ hb
    obtain ⟨_, _, hb⟩ := bind_ok _ _ _ hb
    split at hb
    · cases hb; exact .inr (.inl ⟨d, _, rfl, rfl, (Block.needLocked_eq_ok _ _).1 hl, rfl⟩)
    · cases hb
  case pinf d | pldg d =>
    obtain ⟨_, hl, hb⟩ := bind_ok _ _ _ hb
    cases hb; exact .inr (.inl ⟨d, _, rfl, rfl, (Block.needLocked_eq_ok _ _).1 hl, rfl⟩)
  case pmov d _ | pneg d _ =>
    obtain ⟨_, hl, hb⟩ := bind_ok _ _ _ hb
    obtain ⟨_, _, hb⟩ := bind_ok _ _ _ hb
    cases hb; exact .inr (.inl ⟨d, _, rfl, rfl, (Block.needLocked_eq_ok _ _).1 hl, rfl⟩)
  case pgetx d _ | pgety d _ =>
    obtain ⟨_, _, hb⟩ := bind_ok _ _ _ hb
    obtain ⟨p, _, hb⟩ := bind_ok _ _ _ hb
    cases p with
    | inf => cases hb
    | aff px py => cases hb; exact .inl ⟨d, _, rfl, rfl, rfl⟩
  case padd d _ _ | pmul d _ _ =>
    obtain ⟨_, hl, hb⟩ := bind_ok _ _ _ hb
    obtain ⟨_, _, hb⟩ := bind_ok _ _ _ hb
    obtain ⟨_, _, hb⟩ := bind_ok _ _ _ hb
    obtain ⟨_, _, hb⟩ := bind_ok _ _ _ hb
    cases hb; exact .inr (.inl ⟨d, _, rfl, rfl, (Block.needLocked_eq_ok _ _).1 hl, rfl⟩)

end Sys2Proof.Machine
end

