-- ==== Sys2Proof/Laws/PerInstr.lean ====
section
/-! SUPPORT. The family EncodesItsRow: the word of every command is taken by its row of the match and mask columns of
30_encoding.md R96, and its fields are of the classes the table gives them. One lemma per constructor of `Instr`. -/

namespace Sys2Proof.Laws.EncodesItsRow

set_option Elab.async false

/-- The command's word matches its row, and its fields are legal (R93, R96, R97). -/
def Statement (i : Instr) : Prop := i.row.takes (encode i) = true ∧ i.fields.wf = true

theorem nop : Statement .nop := ⟨by decide, by decide⟩
theorem ld (d : DataReg) : Statement (.ld d) := ⟨by decide +revert, by decide +revert⟩
theorem st (s1 : DataReg) : Statement (.st s1) := ⟨by decide +revert, by decide +revert⟩

theorem li (d : DataReg) (imm12 : BitVec 12) : Statement (.li d imm12) := by
  refine ⟨?_, ?_⟩
  · simp only [EncodingRow.takes, Instr.row, encode, Instr.fields, Fields.toWord, beq_iff_eq]
    apply BitVec.eq_of_getLsbD_eq
    intro j hj
    have hd : (dataField d)[3] = false := by decide +revert
    interval_cases j <;> simp [place, hd]
  · simp only [Fields.wf, Instr.fields, shapeOf]
    have : (dataField d).toNat < 8 := by decide +revert
    simp [FieldClass.ok, LowClass.ok, this]

theorem mov (d s1 : DataReg) : Statement (.mov d s1) := ⟨by decide +revert +kernel, by decide +revert +kernel⟩
theorem cfgset (sel : CfgSel) (s1 : DataReg) : Statement (.cfgset sel s1) := by
  cases sel <;> exact ⟨by decide +revert, by decide +revert⟩
theorem commit : Statement .commit := ⟨by decide, by decide⟩
theorem madd (d s1 s2 : DataReg) : Statement (.madd d s1 s2) := ⟨by decide +revert +kernel, by decide +revert +kernel⟩
theorem mneg (d s1 : DataReg) : Statement (.mneg d s1) := ⟨by decide +revert +kernel, by decide +revert +kernel⟩
theorem mmul (d s1 s2 : DataReg) : Statement (.mmul d s1 s2) := ⟨by decide +revert +kernel, by decide +revert +kernel⟩
theorem minv (d s1 : DataReg) : Statement (.minv d s1) := ⟨by decide +revert +kernel, by decide +revert +kernel⟩
theorem mpow (d s1 s2 : DataReg) : Statement (.mpow d s1 s2) := ⟨by decide +revert +kernel, by decide +revert +kernel⟩
theorem msqrt (d s1 : DataReg) : Statement (.msqrt d s1) := ⟨by decide +revert +kernel, by decide +revert +kernel⟩
theorem pset (d : PointIdx) (s1 s2 : DataReg) : Statement (.pset d s1 s2) :=
  ⟨by decide +revert +kernel, by decide +revert +kernel⟩
theorem pinf (d : PointIdx) : Statement (.pinf d) := ⟨by decide +revert, by decide +revert⟩
theorem pldg (d : PointIdx) : Statement (.pldg d) := ⟨by decide +revert, by decide +revert⟩
theorem pmov (d s1 : PointIdx) : Statement (.pmov d s1) := ⟨by decide +revert +kernel, by decide +revert +kernel⟩
theorem pgetx (d : DataReg) (s1 : PointIdx) : Statement (.pgetx d s1) :=
  ⟨by decide +revert +kernel, by decide +revert +kernel⟩
theorem pgety (d : DataReg) (s1 : PointIdx) : Statement (.pgety d s1) :=
  ⟨by decide +revert +kernel, by decide +revert +kernel⟩
theorem padd (d s1 s2 : PointIdx) : Statement (.padd d s1 s2) := ⟨by decide +revert +kernel, by decide +revert +kernel⟩
theorem pneg (d s1 : PointIdx) : Statement (.pneg d s1) := ⟨by decide +revert +kernel, by decide +revert +kernel⟩
theorem pmul (d s1 : PointIdx) (s2 : DataReg) : Statement (.pmul d s1 s2) :=
  ⟨by decide +revert +kernel, by decide +revert +kernel⟩

end Sys2Proof.Laws.EncodesItsRow
end

