-- ==== Sys2Proof/Laws/Step.lean ====
section
/-! SUPPORT. All that one step of the machine can do to the block, said once, with the event that does it. -/

namespace Sys2Proof.Machine

/-- All that the engine's turn can do: nothing while `BUSY = 0`, else the decoded command or the illegal-command error. -/
theorem engineTurn_cases (s t : State) (h : engineTurn s = .next t) :
    (s.block.busy = false ∧ t = s) ∨
      (s.block.busy = true ∧ ∃ i, decode s.block.cmdreg = .ok i ∧ exec i s = .next t) ∨
      (s.block.busy = true ∧ (∃ m, decode s.block.cmdreg = .error m) ∧
        t = { s with block := s.block.raise .illegalCmd }) := by
  unfold engineTurn at h
  split at h
  · rename_i hb
    rcases engineStep_cases s with ⟨i, hi, he⟩ | ⟨m, hi, he⟩
    · exact .inr (.inl ⟨hb, i, hi, he.symm.trans h⟩)
    · rw [he] at h
      cases h
      exact .inr (.inr ⟨hb, ⟨m, hi⟩, rfl⟩)
  · rename_i hb
    cases h
    exact .inl ⟨by simpa using hb, rfl⟩

/-- All that a step can do to the block: nothing; a reset, at a reset event; a command or the illegal-command error, at the engine's
step; and an accepted command, a cleared latch or one `DIN` word, each at the host's write that says so while `BUSY = 0`. -/
theorem step_cases (s t : State) (h : step s = .next t) :
    t.block = s.block ∨
      (s.ResetNext ∧ t.block = Block.reset) ∨
      (∃ i, s.Runs i ∧ ∃ u : State, u.block = s.block ∧ exec i u = .next t) ∨
      (s.EngineNext ∧ (∃ m, decode s.block.cmdreg = .error m) ∧ t.block = s.block.raise .illegalCmd) ∨
      (∃ c, s.HostWrites 0x000 c ∧ s.block.busy = false ∧ s.block.err = 0 ∧ t.block = s.block.issue c) ∨
      (∃ v, s.HostWrites 0x00C v ∧ s.block.busy = false ∧ t.block = s.block.clearError) ∨
      (∃ (i : Fin Config.limbs) (v : Word), s.HostWrites (0x100 + 4 * i.val) v ∧ s.block.busy = false ∧
        t.block = s.block.writeDin i v) := by
  have turn : ∀ u : State, u.block = s.block → (s.pending = [] ∨ ∃ rest, s.pending = .engineTurn :: rest) →
      engineTurn u = .next t → t.block = s.block ∨
        (∃ i, s.Runs i ∧ ∃ u : State, u.block = s.block ∧ exec i u = .next t) ∨
        (s.EngineNext ∧ (∃ m, decode s.block.cmdreg = .error m) ∧ t.block = s.block.raise .illegalCmd) := by
    intro u hu hp h
    rcases engineTurn_cases u t h with ⟨_, rfl⟩ | ⟨hb, i, hi, he⟩ | ⟨hb, hm, rfl⟩
    · exact .inl hu
    · rw [hu] at hb hi
      exact .inr (.inl ⟨i, ⟨⟨hb, hp⟩, hi⟩, u, hu, he⟩)
    · rw [hu] at hb hm
      exact .inr (.inr ⟨⟨hb, hp⟩, hm, by rw [← hu]⟩)
  unfold step advance at h
  split at h
  · rename_i hp
    rcases turn s rfl (.inl hp) h with h | h | h
    · exact .inl h
    · exact .inr (.inr (.inl h))
    · exact .inr (.inr (.inr (.inl h)))
  · rename_i e rest hp
    cases e with
    | host x =>
      obtain ⟨_, ⟨o, _, hb, _⟩ | ⟨o, v, rfl, ha, hb, _⟩⟩ := State.hostAccess_cases _ _ _ h
      · exact .inl hb
      · obtain ⟨w1, w2, w3, w4⟩ := windowReg_offset o ha
        rw [hb]
        rcases Block.busWrite_cases s.block o v with h | ⟨hw, hv, h⟩ | ⟨hw, h1, h2, h⟩ | ⟨hw, h1, h⟩ | ⟨i, hw, h1, h⟩
        · exact .inl h
        · obtain rfl := w3 hw
          exact .inr (.inl ⟨.inr ⟨v, hv, rest, hp⟩, h⟩)
        · obtain rfl := w1 hw
          exact .inr (.inr (.inr (.inr (.inl ⟨v, ⟨rest, hp⟩, h1, h2, h⟩))))
        · obtain rfl := w2 hw
          exact .inr (.inr (.inr (.inr (.inr (.inl ⟨v, ⟨rest, hp⟩, h1, h⟩)))))
        · obtain rfl := w4 i hw
          exact .inr (.inr (.inr (.inr (.inr (.inr ⟨i, v, ⟨rest, hp⟩, h1, h⟩)))))
    | hardReset =>
      cases h
      exact .inr (.inl ⟨.inl ⟨rest, hp⟩, rfl⟩)
    | engineTurn =>
      rcases turn { s with pending := rest } rfl (.inr ⟨rest, hp⟩) h with h | h | h
      · exact .inl h
      · exact .inr (.inr (.inl h))
      · exact .inr (.inr (.inr (.inl h)))

end Sys2Proof.Machine
end

