-- ==== Sys2Proof/Tests/Slice0.lean ====
section
/-! SUPPORT. The model's own tests, each a named theorem. Expected results come from spec/: the encodings of 30_encoding.md R96, the
illegal words of 95_test_vectors.md section 3.8, and the vectors V40 to V60 and V20 named beside each test. The last part shows, for
every statement with hypotheses, concrete states that meet them, one for each clause. -/

namespace Sys2Proof.Tests

set_option Elab.async false

open Sys2Proof.Machine

/-! ### Small states -/

/-- A configured block: the five fields set and committed, as 70_reset_and_hazards.md R272 leaves it. -/
def configured (p a b gx gy : Nat) : Block :=
  (((((Block.reset.writeField .p (ofNat p)).writeField .a (ofNat a)).writeField .b (ofNat b)).writeField .gx (ofNat gx)).writeField
    .gy (ofNat gy)).lock

/-- The fields set, not committed. -/
def unlocked (p a b gx gy : Nat) : Block := { configured p a b gx gy with locked := false }

/-- The toy curve T23 (95_test_vectors.md section 2). -/
def t23 : Block := configured 23 1 4 1 11

/-- The composite modulus of V40.24. -/
def t21 : Block := configured 21 1 4 0 2

/-- The base point of V40.25 has `y = 0`. -/
def t23y0 : Block := configured 23 1 0 0 0

/-- A point by its coordinates. -/
def aff (x y : Nat) : CurvePoint := .aff (ofNat x) (ofNat y)

/-- A state with this block, nothing pending and nothing observed. -/
def st (b : Block) : State := ⟨b, [], []⟩

/-- A state in which these events are still to happen. -/
def after (events : List Event) (b : Block) : State := ⟨b, events, []⟩

/-- The block one step leaves. -/
def stepped (s : State) : Option Block :=
  match step s with
  | .next t => some t.block
  | .fault _ => none
  | .refused _ => none

/-- The block after the engine's step of this command. -/
def ran (i : Instr) (b : Block) : Option Block := stepped (st (b.issue (encode i)))

/-- What a command leaves in a data register. -/
def dataOf (i : Instr) (b : Block) (d : DataReg) : Option (Bool × Nat) := (ran i b).map fun c => (c.xv[d], (c.x[d]).toNat)

/-- What a command leaves in a point register. -/
def pointOf (i : Instr) (b : Block) (d : PointIdx) : Option PointReg := (ran i b).map fun c => c.q[d]

/-- `STATUS` after a command. -/
def statusOf (i : Instr) (b : Block) : Option Word := (ran i b).map fun c => c.busRead 0x004

/-! ### Which raw words are legal (30_encoding.md R91 to R98; 95_test_vectors.md section 3.8) -/

theorem test_wf_unassigned_opcode : (Fields.mk 0x16 0 0 0 0).wf = false := by decide
theorem test_wf_unused_d_zero : (Fields.mk 0x09 1 0 0 0).wf = false := by decide
theorem test_wf_unused_s1_zero : (Fields.mk 0x01 0 1 0 0).wf = false := by decide
theorem test_wf_unused_s2_zero : (Fields.mk 0x04 0 0 1 0).wf = false := by decide
theorem test_wf_low_zero : (Fields.mk 0x28 0 0 0 1).wf = false := by decide
theorem test_wf_li_middle_zero : (Fields.mk 0x03 0 0 1 0).wf = false := by decide
theorem test_wf_data_index : (Fields.mk 0x10 9 1 2 0).wf = false ∧ (Fields.mk 0x2A 0 0 12 0).wf = false := by decide
theorem test_wf_point_index : (Fields.mk 0x20 4 0 0 0).wf = false ∧ (Fields.mk 0x24 0 4 0 0).wf = false := by decide
theorem test_wf_selector : (Fields.mk 0x08 5 0 0 0).wf = false ∧ (Fields.mk 0x08 4 0 0 0).wf = true := by decide
theorem test_wf_immediate_free : (Fields.mk 0x03 7 0 0 4095).wf = true := by decide

/-- The decoder refuses the illegal words of 95_test_vectors.md section 3.8, each by its cause. -/
theorem test_decode_refuses :
    decode 0x00000001 = .error .mustBeZero ∧ decode 0x01800000 = .error .dataIndex ∧ decode 0x02000001 = .error .mustBeZero ∧
    decode 0x03001000 = .error .mustBeZero ∧ decode 0x08500000 = .error .selector ∧ decode 0x09100000 = .error .mustBeZero ∧
    decode 0x10912000 = .error .dataIndex ∧ decode 0x16000000 = .error .unassignedOpcode := by decide

theorem test_decode_refuses_more :
    decode 0x26000000 = .error .unassignedOpcode ∧ decode 0xFF000000 = .error .unassignedOpcode ∧
    decode 0x20400000 = .error .pointIndex ∧ decode 0x24040000 = .error .pointIndex ∧ decode 0x28000001 = .error .mustBeZero ∧
    decode 0x2A00C000 = .error .dataIndex := by decide

/-! ### Every constructor's word, written out in the groups `op | d | s1 | s2 | low 12` of 30_encoding.md R96 -/

theorem test_decode_nop : decode (0b00000000#8 ++ 0b0000#4 ++ 0b0000#4 ++ 0b0000#4 ++ 0b000000000000#12) = .ok .nop := by decide
theorem test_decode_ld : decode (0b00000001#8 ++ 0b0101#4 ++ 0b0000#4 ++ 0b0000#4 ++ 0b000000000000#12) = .ok (.ld 5) := by decide
theorem test_decode_st : decode (0b00000010#8 ++ 0b0000#4 ++ 0b0110#4 ++ 0b0000#4 ++ 0b000000000000#12) = .ok (.st 6) := by decide
theorem test_decode_li :
    decode (0b00000011#8 ++ 0b0001#4 ++ 0b0000#4 ++ 0b0000#4 ++ 0b100000000011#12) = .ok (.li 1 2051) := by decide
theorem test_decode_mov :
    decode (0b00000100#8 ++ 0b0101#4 ++ 0b0001#4 ++ 0b0000#4 ++ 0b000000000000#12) = .ok (.mov 5 1) := by decide
theorem test_decode_cfgset :
    decode (0b00001000#8 ++ 0b0011#4 ++ 0b0111#4 ++ 0b0000#4 ++ 0b000000000000#12) = .ok (.cfgset .gx 7) := by decide
theorem test_decode_commit :
    decode (0b00001001#8 ++ 0b0000#4 ++ 0b0000#4 ++ 0b0000#4 ++ 0b000000000000#12) = .ok .commit := by decide
theorem test_decode_madd :
    decode (0b00010000#8 ++ 0b0011#4 ++ 0b0001#4 ++ 0b0010#4 ++ 0b000000000000#12) = .ok (.madd 3 1 2) := by decide
theorem test_decode_mneg :
    decode (0b00010001#8 ++ 0b0100#4 ++ 0b0001#4 ++ 0b0000#4 ++ 0b000000000000#12) = .ok (.mneg 4 1) := by decide
theorem test_decode_mmul :
    decode (0b00010010#8 ++ 0b0011#4 ++ 0b0001#4 ++ 0b0110#4 ++ 0b000000000000#12) = .ok (.mmul 3 1 6) := by decide
theorem test_decode_minv :
    decode (0b00010011#8 ++ 0b0010#4 ++ 0b0001#4 ++ 0b0000#4 ++ 0b000000000000#12) = .ok (.minv 2 1) := by decide
theorem test_decode_mpow :
    decode (0b00010100#8 ++ 0b0110#4 ++ 0b0001#4 ++ 0b0101#4 ++ 0b000000000000#12) = .ok (.mpow 6 1 5) := by decide
theorem test_decode_msqrt :
    decode (0b00010101#8 ++ 0b0101#4 ++ 0b0100#4 ++ 0b0000#4 ++ 0b000000000000#12) = .ok (.msqrt 5 4) := by decide
theorem test_decode_pset :
    decode (0b00100000#8 ++ 0b0011#4 ++ 0b0101#4 ++ 0b0110#4 ++ 0b000000000000#12) = .ok (.pset 3 5 6) := by decide
theorem test_decode_pinf :
    decode (0b00100001#8 ++ 0b0001#4 ++ 0b0000#4 ++ 0b0000#4 ++ 0b000000000000#12) = .ok (.pinf 1) := by decide
theorem test_decode_pldg :
    decode (0b00100010#8 ++ 0b0010#4 ++ 0b0000#4 ++ 0b0000#4 ++ 0b000000000000#12) = .ok (.pldg 2) := by decide
theorem test_decode_pmov :
    decode (0b00100011#8 ++ 0b0011#4 ++ 0b0010#4 ++ 0b0000#4 ++ 0b000000000000#12) = .ok (.pmov 3 2) := by decide
theorem test_decode_pgetx :
    decode (0b00100100#8 ++ 0b0101#4 ++ 0b0010#4 ++ 0b0000#4 ++ 0b000000000000#12) = .ok (.pgetx 5 2) := by decide
theorem test_decode_pgety :
    decode (0b00100101#8 ++ 0b0110#4 ++ 0b0011#4 ++ 0b0000#4 ++ 0b000000000000#12) = .ok (.pgety 6 3) := by decide
theorem test_decode_padd :
    decode (0b00101000#8 ++ 0b0011#4 ++ 0b0001#4 ++ 0b0010#4 ++ 0b000000000000#12) = .ok (.padd 3 1 2) := by decide
theorem test_decode_pneg :
    decode (0b00101001#8 ++ 0b0010#4 ++ 0b0001#4 ++ 0b0000#4 ++ 0b000000000000#12) = .ok (.pneg 2 1) := by decide
theorem test_decode_pmul :
    decode (0b00101010#8 ++ 0b0011#4 ++ 0b0001#4 ++ 0b0100#4 ++ 0b000000000000#12) = .ok (.pmul 3 1 4) := by decide

/-- The all-bits-set words of 95_test_vectors.md section 3.8, and the pseudo-instructions of R101 (V42.4, V45.5). -/
theorem test_encode_words :
    encode (.li 7 4095) = 0x03700FFF ∧ encode (.madd 7 7 7) = 0x10777000 ∧ encode (.padd 3 3 3) = 0x28333000 ∧
    encode (.pmul 3 3 7) = 0x2A337000 ∧ encode (.pset 3 7 7) = 0x20377000 ∧ encode (.cfgset .gy 7) = 0x08470000 ∧
    encode (Instr.msqr 3 1) = 0x12311000 ∧ encode (Instr.pdbl 1 0) = 0x28100000 := by decide

/-- The assembler text of R100. -/
theorem test_asm_text : Instr.asm (.padd 2 0 1) = "PADD q2, q0, q1" ∧ Instr.asm (.cfgset .gy 7) = "CFGSET GY, r7" := by decide +kernel

theorem test_table_word : decodeTableWord 32 0x10312000 = some (.madd 3 1 2) ∧ decodeTableWord 32 0x10912000 = none := by decide

/-! ### Data movement and configuration (V40) -/

/-- V40.1. -/
theorem test_nop : ran .nop t23 = some t23 := by decide +kernel

/-- V40.4: all 17 words of `DIN` set. -/
theorem test_ld_all_ones :
    dataOf (.ld 7) { t23 with din := Vector.replicate 17 0xFFFFFFFF } 7 = some (true, 2 ^ 544 - 1) := by decide +kernel

/-- V40.3: limb 1 weighs `2^32`. -/
theorem test_ld_limb_order :
    dataOf (.ld 3) ((Block.reset.writeDin 0 2).writeDin 1 1) 3 = some (true, 4294967298) := by decide +kernel

/-- V40.6. -/
theorem test_st_limb_order :
    (ran (.st 3) (t23.writeData 3 (ofNat 4294967298))).map (fun c => c.dout.toList) = some (2 :: 1 :: List.replicate 15 0) := by
  decide +kernel

/-- V40.7, V60.2. -/
theorem test_st_uninit : statusOf (.st 0) Block.reset = some 0x00001104 := by decide +kernel

/-- V40.9. -/
theorem test_li : dataOf (.li 7 4095) Block.reset 7 = some (true, 4095) := by decide +kernel

/-- V40.10. -/
theorem test_mov : dataOf (.mov 5 1) (t23.writeData 1 11) 5 = some (true, 11) := by decide +kernel

/-- V40.13: `RVALID` bit 12 and the field. -/
theorem test_cfgset :
    (ran (.cfgset .gy 7) (Block.reset.writeData 7 11)).map (fun c => (c.busRead 0x010, c.GY)) = some (0x00001080, 11) := by
  decide +kernel

/-- V40.14. -/
theorem test_cfgset_locked : (ran (.cfgset .p 0) t23).map (fun c => c.err) = some 0x13 := by decide +kernel

/-- V40.18 to V40.22, V40.16: the checks of COMMIT in their order. -/
theorem test_commit_checks :
    statusOf .commit Block.reset = some 0x00001404 ∧ statusOf .commit (unlocked 22 1 1 1 1) = some 0x00001404 ∧
    statusOf .commit (unlocked 1 1 1 1 1) = some 0x00001404 ∧ statusOf .commit (unlocked 23 23 1 1 1) = some 0x00000104 ∧
    statusOf .commit (unlocked 23 1 1 1 1) = some 0x00000404 := by decide +kernel

/-- V40.22 to V40.25. -/
theorem test_commit_locks :
    statusOf .commit (unlocked 23 1 4 1 11) = some 0x00000002 ∧ statusOf .commit (unlocked 21 1 4 0 2) = some 0x00000002 ∧
    statusOf .commit (unlocked 23 1 0 0 0) = some 0x00000002 ∧ statusOf .commit t23 = some 0x00001306 := by decide +kernel

/-! ### Modular arithmetic (V41 to V44) -/

/-- V41.1, V41.3, V41.5. -/
theorem test_madd :
    dataOf (.madd 3 1 2) ((t23.writeData 1 20).writeData 2 5) 3 = some (true, 2) ∧
    dataOf (.madd 3 1 2) ((t23.writeData 1 22).writeData 2 1) 3 = some (true, 0) ∧
    dataOf (.madd 3 3 3) (t23.writeData 3 22) 3 = some (true, 21) := by decide +kernel

/-- V41.6, V41.8, V60.4. -/
theorem test_madd_errors :
    statusOf (.madd 3 2 1) ((t23.writeData 2 23).writeData 1 11) = some 0x00000106 ∧
    statusOf (.madd 3 1 2) Block.reset = some 0x00001204 ∧ statusOf (.madd 3 2 5) (t23.writeData 2 23) = some 0x00001106 := by
  decide +kernel

/-- V41.9, V41.10, V41.11. -/
theorem test_mneg :
    dataOf (.mneg 4 1) (t23.writeData 1 20) 4 = some (true, 3) ∧ dataOf (.mneg 4 1) (t23.writeData 1 0) 4 = some (true, 0) ∧
    dataOf (.mneg 1 1) (t23.writeData 1 1) 1 = some (true, 22) := by decide +kernel

/-- V41.13. -/
theorem test_fsub : fsub 23 1 17 = 7 ∧ fsub 23 18 11 = 7 ∧ fsub 23 14 1 = 13 ∧ fsub 23 5 5 = 0 := by decide

/-- V42.1, V42.4, V42.6, V42.7. -/
theorem test_mmul :
    dataOf (.mmul 3 1 2) ((t23.writeData 1 20).writeData 2 5) 3 = some (true, 8) ∧
    dataOf (Instr.msqr 3 1) (t23.writeData 1 22) 3 = some (true, 1) ∧
    dataOf (.mmul 1 1 2) ((t23.writeData 1 12).writeData 2 2) 1 = some (true, 1) ∧
    statusOf (.mmul 3 1 2) ((t23.writeData 1 100).writeData 2 2) = some 0x00000106 := by decide +kernel

/-- V42.8: the P-256 prime of 95_test_vectors.md section 1.2. -/
theorem test_mmul_wide :
    fmul 0xffffffff00000001000000000000000000000000ffffffffffffffffffffffff
      0xffffffff00000001000000000000000000000000fffffffffffffffffffffffe
      0xffffffff00000001000000000000000000000000fffffffffffffffffffffffe = 1 := by decide +kernel

/-- V43.1, V43.3, V43.7. -/
theorem test_minv :
    dataOf (.minv 2 1) (t23.writeData 1 5) 2 = some (true, 14) ∧ dataOf (.minv 2 1) (t23.writeData 1 22) 2 = some (true, 22) ∧
    dataOf (.minv 2 1) (t21.writeData 1 2) 2 = some (true, 11) := by decide +kernel

/-- V43.4, V43.8, V43.9. -/
theorem test_minv_errors :
    (ran (.minv 5 4) (t23.writeData 4 0)).map (fun c => (c.busRead 0x004, c.busRead 0x008, c.xv[5])) =
      some (0x00000206, 0x13540000, false) ∧
    statusOf (.minv 2 1) (t21.writeData 1 3) = some 0x00000206 ∧ statusOf (.minv 2 1) (t23.writeData 1 23) = some 0x00000106 := by
  decide +kernel

/-- V44.1, V44.4, V44.6, V44.7c. -/
theorem test_mpow :
    dataOf (.mpow 3 1 2) ((t23.writeData 1 5).writeData 2 3) 3 = some (true, 10) ∧
    dataOf (.mpow 3 1 2) ((t23.writeData 1 0).writeData 2 0) 3 = some (true, 1) ∧
    dataOf (.mpow 6 1 5) ((t23.writeData 1 11).writeData 5 100) 6 = some (true, 12) ∧
    dataOf (.mpow 1 1 1) (t23.writeData 1 5) 1 = some (true, 20) := by decide +kernel

/-- V44.7b (the largest exponent) and V44.7. -/
theorem test_mpow_bounds :
    dataOf (.mpow 3 1 7) ((t23.writeData 1 5).writeData 7 (ofNat (2 ^ 544 - 1))) 3 = some (true, 19) ∧
    statusOf (.mpow 6 5 1) ((t23.writeData 5 100).writeData 1 11) = some 0x00000106 := by decide +kernel

/-- V44.8, V44.11, V44.15. -/
theorem test_msqrt :
    dataOf (.msqrt 2 1) (t23.writeData 1 6) 2 = some (true, 12) ∧ dataOf (.msqrt 1 1) (t23.writeData 1 2) 1 = some (true, 18) ∧
    dataOf (.msqrt 2 1) ((configured 15 1 4 0 2).writeData 1 10) 2 = some (true, 10) := by decide +kernel

/-- V44.9, V44.12, V44.13, V44.14. -/
theorem test_msqrt_errors :
    statusOf (.msqrt 2 1) (t23.writeData 1 5) = some 0x00000306 ∧ statusOf (.msqrt 5 4) (t21.writeData 4 5) = some 0x00001606 ∧
    statusOf (.msqrt 5 4) (t21.writeData 4 30) = some 0x00000106 ∧
    statusOf (.msqrt 2 1) ((configured 15 1 4 0 2).writeData 1 4) = some 0x00000306 := by decide +kernel

/-! ### Points (V45, V46) -/

/-- V45.1. -/
theorem test_pset : pointOf (.pset 0 1 2) ((t23.writeData 1 1).writeData 2 11) 0 = some (.holds (aff 1 11)) := by decide +kernel

/-- V45.2, V45.2b, V45.2c. -/
theorem test_pset_errors :
    statusOf (.pset 0 1 2) ((t23.writeData 1 17).writeData 2 15) = some 0x00000406 ∧
    statusOf (.pset 0 1 2) ((t23.writeData 1 24).writeData 2 11) = some 0x00000106 ∧
    statusOf (.pset 3 7 7) (t23.writeData 7 4) = some 0x00000406 := by decide +kernel

/-- V45.14, V45.24. -/
theorem test_pinf :
    (ran (.pinf 1) t23).map (fun c => (c.q[1], c.busRead 0x014)) = some (.holds .inf, 0x00000004) ∧
    statusOf (.pinf 0) Block.reset = some 0x00001204 := by decide +kernel

/-- V45.15. -/
theorem test_pldg : pointOf (.pldg 0) t23 0 = some (.holds (aff 1 11)) := by decide +kernel

/-- V45.16. -/
theorem test_pmov : pointOf (.pmov 3 0) (t23.writePoint 0 (aff 1 11)) 3 = some (.holds (aff 1 11)) := by decide +kernel

/-- V45.17, V45.18. -/
theorem test_pgetx :
    dataOf (.pgetx 1 2) (t23.writePoint 2 (aff 14 18)) 1 = some (true, 14) ∧
    statusOf (.pgetx 5 1) (t23.writePoint 1 .inf) = some 0x00001506 := by decide +kernel

/-- V45.17. -/
theorem test_pgety : dataOf (.pgety 2 2) (t23.writePoint 2 (aff 14 18)) 2 = some (true, 18) := by decide +kernel

/-- V45.5 (double), V45.6 (chord), V45.8 (double in place). -/
theorem test_padd :
    pointOf (Instr.pdbl 1 0) (t23.writePoint 0 (aff 1 11)) 1 = some (.holds (aff 14 18)) ∧
    pointOf (.padd 2 0 1) ((t23.writePoint 0 (aff 1 11)).writePoint 1 (aff 14 18)) 2 = some (.holds (aff 17 14)) ∧
    pointOf (.padd 3 3 3) (t23.writePoint 3 (aff 0 2)) 3 = some (.holds (aff 13 12)) := by decide +kernel

/-- V45.3, V45.4, V45.20, V45.22, V45.19. -/
theorem test_padd_corners :
    pointOf (.padd 2 0 1) ((t23.writePoint 0 (aff 1 11)).writePoint 1 .inf) 2 = some (.holds (aff 1 11)) ∧
    pointOf (.padd 2 0 1) ((t23.writePoint 0 (aff 1 11)).writePoint 1 (aff 1 12)) 2 = some (.holds .inf) ∧
    pointOf (.padd 1 0 0) (t23y0.writePoint 0 (aff 0 0)) 1 = some (.holds .inf) ∧
    statusOf (.padd 2 0 1) ((t21.writePoint 0 (aff 0 2)).writePoint 1 (aff 0 5)) = some 0x00000206 ∧
    statusOf (.padd 2 1 3) (t23.writePoint 1 .inf) = some 0x00001106 := by decide +kernel

/-- V45.12, V45.13, V45.21. -/
theorem test_pneg :
    pointOf (.pneg 1 0) (t23.writePoint 0 (aff 1 11)) 1 = some (.holds (aff 1 12)) ∧
    pointOf (.pneg 2 1) (t23.writePoint 1 .inf) 2 = some (.holds .inf) ∧
    pointOf (.pneg 1 0) (t23y0.writePoint 0 (aff 0 0)) 1 = some (.holds (aff 0 0)) := by decide +kernel

/-- V46.1, V46.3, V46.6. -/
theorem test_pmul :
    pointOf (.pmul 1 0 3) ((t23.writePoint 0 (aff 1 11)).writeData 3 0) 1 = some (.holds .inf) ∧
    pointOf (.pmul 1 0 3) ((t23.writePoint 0 (aff 1 11)).writeData 3 3) 1 = some (.holds (aff 17 14)) ∧
    pointOf (.pmul 1 0 3) ((t23.writePoint 0 (aff 1 11)).writeData 3 29) 1 = some (.holds .inf) ∧
    pointOf (.pmul 1 0 3) ((t23.writePoint 0 (aff 1 11)).writeData 3 30) 1 = some (.holds (aff 1 11)) := by decide +kernel

/-- V46.8 (the largest scalar) and V46.12 (a composite modulus). -/
theorem test_pmul_bounds :
    pointOf (.pmul 1 0 7) ((t23.writePoint 0 (aff 1 11)).writeData 7 (ofNat (2 ^ 544 - 1))) 1 = some (.holds (aff 7 20)) ∧
    pointOf (.pmul 2 3 6) ((t21.writePoint 3 (aff 0 2)).writeData 6 3) 2 = some (.holds (aff 12 13)) := by decide +kernel

/-- The double of the base point of P-256 (95_test_vectors.md section 1.2). -/
theorem test_group_op_wide :
    groupOp 0xffffffff00000001000000000000000000000000ffffffffffffffffffffffff
      0xffffffff00000001000000000000000000000000fffffffffffffffffffffffc
      (aff 0x6b17d1f2e12c4247f8bce6e563a440f277037d812deb33a0f4a13945d898c296
        0x4fe342e2fe1a7f9b8ee7eb4a7c0f9e162bce33576b315ececbb6406837bf51f5)
      (aff 0x6b17d1f2e12c4247f8bce6e563a440f277037d812deb33a0f4a13945d898c296
        0x4fe342e2fe1a7f9b8ee7eb4a7c0f9e162bce33576b315ececbb6406837bf51f5) =
    .ok (aff 0x7cf27b188d034f7e8a52380304b51ac3c08969e277f21b35a60b48fc47669978
      0x07775510db8ed040293d9ac69f7430dbba7dade63ce982299e04b79d227873d1) := by decide +kernel

/-! ### The latch, the bus and the ordering (V60, V20) -/

/-- `ERR = 0x03` latched by a failed MSQRT, as V60.5 has it. -/
def latched : Block := { t23 with err := 0x03, errcmd := 0x15420000, cmdreg := 0x15420000 }

/-- V60.3: decode before lifecycle. -/
theorem test_illegal_first :
    (stepped (st (Block.reset.issue 0x10912000))).map (fun c => (c.busRead 0x004, c.busRead 0x008)) =
      some (0x00001004, 0x10912000) := by decide +kernel

/-- V60.5: a command is dropped while an error is latched. -/
theorem test_cmd_dropped : stepped (after [hostWrite 0x000 0x03100004] latched) = some latched := by decide +kernel

/-- V60.6. -/
theorem test_errclr :
    (stepped (after [hostWrite 0x00C 0] latched)).map (fun c => (c.busRead 0x004, c.busRead 0x008)) = some (0x00000002, 0) := by
  decide +kernel

/-- V60.8, V60.9. -/
theorem test_srst :
    stepped (after [hostWrite 0x01C 1] latched) = some Block.reset ∧ stepped (after [hostWrite 0x01C 2] t23) = some t23 ∧
    stepped (after [.hardReset] latched) = some Block.reset := by decide +kernel

/-- V20.1 to V20.3. -/
theorem test_reads_after_reset :
    Block.reset.busRead 0x018 = 0x00004811 ∧ Block.reset.busRead 0x004 = 0 ∧ Block.reset.busRead 0x010 = 0 ∧
    Block.reset.busRead 0x014 = 0 ∧ Block.reset.busRead 0x144 = 0 ∧ Block.reset.busRead 0x1FC = 0 := by decide +kernel

/-- V20.5: while the command is in flight, `STATUS` reads 1 and the host's writes are dropped. -/
theorem test_busy_drops :
    stepped (after [hostWrite 0x000 0x03100006] (Block.reset.issue 0x03100005)) = some (Block.reset.issue 0x03100005) ∧
    stepped (after [hostWrite 0x100 7] (Block.reset.issue 0x03100005)) = some (Block.reset.issue 0x03100005) ∧
    (Block.reset.issue 0x03100005).busRead 0x004 = 1 := by decide +kernel

/-- V20.6: a reset abandons the command in flight. -/
theorem test_reset_abandons : stepped (after [hostWrite 0x01C 1] (t23.issue 0x2A101000)) = some Block.reset := by decide +kernel

/-- V20.8: a byte write, a misaligned read and a read past the window are not performed. -/
theorem test_unperformed :
    stepped (after [.host (.write 0x100 1 5)] t23) = none ∧ stepped (after [.host (.read 0x102 4)] t23) = none ∧
    stepped (after [.host (.read 0x200 4)] t23) = none := by decide +kernel

/-! ### Witnesses: for each statement with hypotheses, states and operands that meet them, one group for each clause -/

/-- A command answers a next state of which `p` holds, if evaluating it says so. -/
theorem answers (i : Instr) (s : State) (p : State → Bool)
    (h : (match exec i s with | .next t => p t | .fault _ => false | .refused _ => false) = true) :
    ∃ t, exec i s = .next t ∧ p t = true := by
  cases e : exec i s with
  | next t => rw [e] at h; exact ⟨t, rfl, h⟩
  | fault f => rw [e] at h; cases h
  | refused r => rw [e] at h; cases h

/-- The same of a step. -/
theorem steps (s : State) (p : State → Bool)
    (h : (match step s with | .next t => p t | .fault _ => false | .refused _ => false) = true) :
    ∃ t, step s = .next t ∧ p t = true := by
  cases e : step s with
  | next t => rw [e] at h; exact ⟨t, rfl, h⟩
  | fault f => rw [e] at h; cases h
  | refused r => rw [e] at h; cases h

/-- T23 with every kind of point register and two residues. -/
def rich : Block :=
  ((((t23.writePoint 0 (aff 1 11)).writePoint 1 .inf).writePoint 2 (aff 14 18)).writeData 1 5).writeData 2 22

/-- T21 with two points whose chord has no inverse (V45.19). -/
def rich21 : Block := ((t21.writePoint 0 (aff 0 2)).writePoint 1 (aff 0 5)).writeData 1 4

theorem witness_EncodeOfDecodeIsIdentity :
    decode 0x03700FFF = .ok (.li 7 4095) ∧ decode 0x2A337000 = .ok (.pmul 3 3 7) := by decide

/-- The selector's range: 4 is a CFGSET, 5 matches the row and is no command. -/
theorem witness_DecodesExactlyTheTableRows :
    (Instr.cfgset .p 0).row.takes 0x08470000 = true ∧ (0x08470000#32).extractLsb' 20 4 = 4 ∧
    (Instr.cfgset .p 0).row.takes 0x08570000 = true ∧ decode 0x08570000 = .error .selector := by decide

theorem witness_IllegalWordFails :
    (Fields.ofWord (st (t23.issue 0x10912000)).block.cmdreg).wf = false ∧ (Fields.ofWord 0x10712000).wf = true := by decide

theorem witness_StepRunsTheDecodedCommand :
    let s := st (t23.issue 0x10312000)
    let s' := after [.engineTurn, .hardReset] (t23.issue 0x10312000)
    (s.block.busy = true ∧ decode s.block.cmdreg = .ok (.madd 3 1 2) ∧ s.pending = []) ∧
    (s'.block.busy = true ∧ decode s'.block.cmdreg = .ok (.madd 3 1 2) ∧ s'.pending = .engineTurn :: [.hardReset]) ∧
    ((st (t23.issue 0x10912000)).block.busy = true ∧ decode (st (t23.issue 0x10912000)).block.cmdreg = .error .dataIndex ∧
      (after [.engineTurn] (t23.issue 0x10912000)).pending = [.engineTurn]) ∧
    (st t23).block.busy = false ∧ (after [.engineTurn] t23).block.busy = false := by decide +kernel

theorem witness_CmdWriteIssuesOrIsDropped :
    let s := after [.host (.write 0x000 4 0x10312000)] t23
    (s.pending = .host (.write 0x000 4 0x10312000) :: [] ∧ s.block.busy = false ∧ s.block.err = 0) ∧
    (t23.issue 0).busy = true ∧ latched.err ≠ 0 := by decide +kernel

theorem witness_EveryRunEnds : (after [.host (.read 0x1FC 4), .host (.write 0x000 4 0x10312000)] t23).Performed := by
  intro e h
  fin_cases h <;> rfl

theorem witness_LifecycleErrors :
    (0x10 ≤ (Instr.madd 3 1 2).fields.op.toNat ∧ Block.reset.locked = false) ∧ t23.locked = true ∧
    ((Instr.mov 5 1).fields.op.toNat < 0x08 ∧ t23.err = 0) := by decide +kernel

/-- A data source, a second data source, a point source, in the lifecycle state the command needs; and every source valid. -/
theorem witness_UninitializedSourceFails :
    (LifecycleOk (.st 0) Block.reset ∧ ∃ r ∈ dataSources (.st 0), Block.reset.xv[r] = false) ∧
    (LifecycleOk (.cfgset .gy 7) Block.reset ∧ ∃ r ∈ dataSources (.cfgset .gy 7), Block.reset.xv[r] = false) ∧
    (LifecycleOk (.madd 3 1 7) rich ∧ ∃ r ∈ dataSources (.madd 3 1 7), rich.xv[r] = false) ∧
    (LifecycleOk (.padd 2 0 3) rich ∧ ∃ r ∈ pointSources (.padd 2 0 3), rich.q[r] = .empty) ∧
    (LifecycleOk (.pmul 3 0 1) rich ∧ SourcesValid (.pmul 3 0 1) rich ∧ rich.err = 0) :=
  ⟨by decide +kernel, by decide +kernel, by decide +kernel, by decide +kernel, by decide +kernel, by decide +kernel,
    by decide +kernel⟩

/-- An operand equal to `P`, and a coefficient equal to `P`. -/
theorem witness_ModulusMismatchFails :
    (let b := rich.writeData 2 23
     LifecycleOk (.madd 3 1 2) b ∧ SourcesValid (.madd 3 1 2) b ∧ ∃ r ∈ modularOperands (.madd 3 1 2), b.P ≤ b.x[r].toNat) ∧
    (let b := unlocked 23 23 1 1 1
     b.locked = false ∧ (∀ sel : CfgSel, b.cv[sel.index] = true) ∧ b.P % 2 = 1 ∧ 3 ≤ b.P ∧ b.P ≤ b.A) := by
  refine ⟨by decide +kernel, by decide +kernel, ?_, by decide +kernel, by decide +kernel, by decide +kernel⟩
  intro sel
  cases sel <;> decide +kernel

theorem witness_StStoresTheLimbs : t23.xv[3] = false ∧ (t23.writeData 3 4294967298).Holds 3 4294967298 := by decide +kernel

theorem witness_MovCopies : t23.xv[3] = false ∧ rich.xv[1] = true := by decide +kernel

theorem witness_CfgsetWritesTheField :
    t23.locked = true ∧ (Block.reset.locked = false ∧ Block.reset.xv[7] = false) ∧
    (unlocked 23 1 4 1 11).locked = false ∧ ((unlocked 23 1 4 1 11).writeData 7 11).xv[7] = true := by decide +kernel

/-- One configuration for each clause: locked; nothing set; an even `P`, and `P = 1`; `A = P`; a base point off the curve; T23. -/
theorem witness_CommitChecksAndLocks :
    t23.locked = true ∧ Block.reset.cv[(CfgSel.p).index] = false ∧
    (∀ sel : CfgSel, (unlocked 22 1 1 1 1).cv[sel.index] = true) ∧
    ((unlocked 22 1 1 1 1).P % 2 = 0 ∧ (unlocked 1 1 1 1 1).P < 3) ∧
    ((unlocked 23 23 1 1 1).P % 2 = 1 ∧ (unlocked 23 23 1 1 1).A = (unlocked 23 23 1 1 1).P) ∧
    (let b := unlocked 23 1 1 1 1
     b.locked = false ∧ b.A < b.P ∧ b.B < b.P ∧ b.GX < b.P ∧ b.GY < b.P ∧ b.GY ^ 2 % b.P ≠ (b.GX ^ 3 + b.A * b.GX + b.B) % b.P) ∧
    (let b := unlocked 23 1 4 1 11
     b.locked = false ∧ b.A < b.P ∧ b.B < b.P ∧ b.GX < b.P ∧ b.GY < b.P ∧
       b.GY ^ 2 % b.P = (b.GX ^ 3 + b.A * b.GX + b.B) % b.P) := by
  refine ⟨by decide +kernel, by decide +kernel, ?_, by decide +kernel, by decide +kernel, by decide +kernel, by decide +kernel⟩
  intro sel
  cases sel <;> decide +kernel

/-- The largest sum, and an operand equal to `P`. -/
theorem witness_MaddAddsModP :
    Block.reset.locked = false ∧ (t23.locked = true ∧ t23.xv[1] = false) ∧
    (rich.locked = true ∧ (rich.writeData 1 23).Holds 1 23 ∧ (rich.writeData 1 23).Holds 2 22 ∧ rich.P ≤ 23) ∧
    ((rich.writeData 1 22).Holds 1 22 ∧ rich.Holds 2 22 ∧ 22 < rich.P) := by decide +kernel

theorem witness_MnegNegatesModP :
    Block.reset.locked = false ∧ (t23.locked = true ∧ t23.xv[1] = false) ∧
    ((rich.writeData 1 23).locked = true ∧ (rich.writeData 1 23).Holds 1 23 ∧ rich.P ≤ 23) ∧
    ((rich.writeData 1 0).Holds 1 0 ∧ 0 < rich.P) ∧ (rich.Holds 2 22 ∧ 22 < rich.P) := by decide +kernel

theorem witness_MmulMultipliesModP :
    Block.reset.locked = false ∧ (t23.locked = true ∧ t23.xv[2] = false) ∧
    (rich.locked = true ∧ (rich.writeData 1 23).Holds 1 23 ∧ rich.P ≤ 23) ∧
    ((rich.writeData 1 22).Holds 1 22 ∧ rich.Holds 2 22 ∧ 22 < rich.P) := by decide +kernel

theorem witness_MinvInvertsOrFails :
    Block.reset.locked = false ∧ (t23.locked = true ∧ t23.xv[1] = false) ∧
    (rich.locked = true ∧ (rich.writeData 1 23).Holds 1 23 ∧ rich.P ≤ 23) ∧
    (3 ≤ rich.P ∧ (rich.writeData 1 0).Holds 1 0 ∧ 0 < rich.P ∧ Nat.gcd 0 rich.P ≠ 1) ∧
    (t21.locked = true ∧ (t21.writeData 1 3).Holds 1 3 ∧ 3 < t21.P ∧ Nat.gcd 3 t21.P ≠ 1) ∧
    (rich.Holds 2 22 ∧ 22 < rich.P ∧ Nat.gcd 22 rich.P = 1) := by decide +kernel

theorem witness_MpowIsThePowerModP :
    Block.reset.locked = false ∧ (t23.locked = true ∧ t23.xv[1] = false) ∧
    (rich.locked = true ∧ (rich.writeData 1 23).Holds 1 23 ∧ rich.P ≤ 23) ∧
    (3 ≤ rich.P ∧ rich.Holds 1 5 ∧ 5 < rich.P ∧ (rich.writeData 2 0).Holds 2 0) ∧
    (rich.writeData 2 (ofNat (2 ^ 544 - 1))).Holds 2 (2 ^ 544 - 1) := by decide +kernel

/-- A non-residue, a residue with a root, and a modulus that is not 3 modulo 4. -/
theorem witness_MsqrtTakesTheShortcutRoot :
    Block.reset.locked = false ∧ (t23.locked = true ∧ t23.xv[1] = false) ∧
    (rich.locked = true ∧ (rich.writeData 1 23).Holds 1 23 ∧ rich.P ≤ 23) ∧
    (rich21.locked = true ∧ rich21.Holds 1 4 ∧ 4 < rich21.P ∧ rich21.P % 4 ≠ 3) ∧
    (rich.Holds 1 5 ∧ rich.P % 4 = 3 ∧ 5 ^ 6 % 23 * (5 ^ 6 % 23) % 23 ≠ 5) ∧
    ((rich.writeData 1 6).Holds 1 6 ∧ 6 ^ 6 % 23 * (6 ^ 6 % 23) % 23 = 6) := by decide +kernel

theorem witness_InverseTimesValueIsOne :
    (1 : DataReg) ≠ 2 ∧ 3 ≤ rich.P ∧ rich.err = 0 ∧
    ∃ t, exec (.minv 2 1) (st rich) = .next t ∧ (t.block.err == 0) = true :=
  ⟨by decide, by decide +kernel, by decide +kernel, answers _ _ _ (by decide +kernel)⟩

theorem witness_PsetChecksTheCurve :
    Block.reset.locked = false ∧ (t23.locked = true ∧ t23.xv[1] = false) ∧
    (rich.locked = true ∧ (rich.writeData 1 23).Holds 1 23 ∧ rich.Holds 2 22 ∧ rich.P ≤ 23) ∧
    (rich.Holds 1 5 ∧ 5 < rich.P ∧ 22 < rich.P ∧ 22 ^ 2 % rich.P ≠ (5 ^ 3 + rich.A * 5 + rich.B) % rich.P) ∧
    (let b := (rich.writeData 1 1).writeData 2 11
     b.Holds 1 1 ∧ b.Holds 2 11 ∧ 11 ^ 2 % b.P = (1 ^ 3 + b.A * 1 + b.B) % b.P) := by decide +kernel

theorem witness_PinfAndPldgConstruct : Block.reset.locked = false ∧ t23.locked = true := by decide +kernel

/-- An `EMPTY` source, `INF`, an affine point, and one with `y = 0`. -/
theorem witness_PmovAndPnegResults :
    Block.reset.locked = false ∧ (rich.locked = true ∧ rich.q[3] = .empty) ∧ rich.q[1] = .holds .inf ∧
    (rich.q[0] = .holds (aff 1 11) ∧ (ofNat 11).toNat < rich.P) ∧
    ((t23y0.writePoint 0 (aff 0 0)).locked = true ∧ (t23y0.writePoint 0 (aff 0 0)).q[0] = .holds (.aff 0 0) ∧
      (0 : Value).toNat < t23y0.P) := by decide +kernel

theorem witness_PgetReadsCoordinates :
    Block.reset.locked = false ∧ (rich.locked = true ∧ rich.q[3] = .empty) ∧ rich.q[1] = .holds .inf ∧
    rich.q[0] = .holds (aff 1 11) := by decide +kernel

/-- The last clause with opposite points, and with a point of order two and itself. -/
theorem witness_PaddIdentityAndInverse :
    Block.reset.locked = false ∧ (rich.locked = true ∧ rich.q[3] = .empty) ∧
    (rich.q[1] = .holds .inf ∧ rich.q[0] = .holds (aff 1 11)) ∧
    (let b := rich.writePoint 3 (aff 1 12)
     b.locked = true ∧ b.q[3] = .holds (.aff (ofNat 1) (ofNat 12)) ∧ b.q[0] = .holds (.aff (ofNat 1) (ofNat 11)) ∧
       (ofNat 12).toNat < b.P ∧ ((ofNat 12).toNat + (ofNat 11).toNat) % b.P = 0) ∧
    ((t23y0.writePoint 0 (aff 0 0)).q[0] = .holds (.aff (ofNat 0) (ofNat 0)) ∧
      ((ofNat 0).toNat + (ofNat 0).toNat) % t23y0.P = 0) := by decide +kernel

/-- A chord and a tangent on T23, and on T21 a chord between two points of the same `x`, whose denominator is 0. -/
theorem witness_PaddTangentAndChord :
    (rich.locked = true ∧ rich.q[0] = .holds (.aff (ofNat 1) (ofNat 11)) ∧ rich.q[2] = .holds (.aff (ofNat 14) (ofNat 18)) ∧
      3 ≤ rich.P ∧ 18 < rich.P ∧ ofNat 1 ≠ ofNat 14 ∧ Nat.gcd (14 + (rich.P - 1)) rich.P = 1) ∧
    ((11 + 11) % rich.P ≠ 0 ∧ Nat.gcd (2 * 11) rich.P = 1) ∧
    (rich21.locked = true ∧ rich21.q[0] = .holds (.aff (ofNat 0) (ofNat 2)) ∧ rich21.q[1] = .holds (.aff (ofNat 0) (ofNat 5)) ∧
      3 ≤ rich21.P ∧ 5 < rich21.P ∧ (2 + 5) % rich21.P ≠ 0 ∧ Nat.gcd (0 + (rich21.P - 0)) rich21.P ≠ 1) := by decide +kernel

/-- Sums that return, and on T21 one that fails. -/
theorem witness_PmulIsDoubleAndAdd :
    Block.reset.locked = false ∧ (rich.locked = true ∧ rich.q[3] = .empty) ∧ rich.xv[7] = false ∧
    (rich.q[0] = .holds (aff 1 11) ∧ rich.Holds 1 5 ∧ scalarMul rich.P rich.A (aff 1 11) 3 = .ok (aff 17 14)) ∧
    (let b := rich21.writeData 1 4
     b.locked = true ∧ b.q[0] = .holds (aff 0 2) ∧ b.Holds 1 4 ∧ scalarMul b.P b.A (aff 0 2) 4 = .error .noInverse) := by
  decide +kernel

/-- The points of `rich` are points of T23. -/
theorem rich_points (i : PointIdx) (p : CurvePoint) (h : rich.q[i] = .holds p) : IsCurvePoint rich.P rich.A rich.B p := by
  have h0 : rich.q[(0 : PointIdx)] = .holds (aff 1 11) := by decide +kernel
  have h1 : rich.q[(1 : PointIdx)] = .holds .inf := by decide +kernel
  have h2 : rich.q[(2 : PointIdx)] = .holds (aff 14 18) := by decide +kernel
  have h3 : rich.q[(3 : PointIdx)] = .empty := by decide +kernel
  have four : ∀ j : PointIdx, j = 0 ∨ j = 1 ∨ j = 2 ∨ j = 3 := by decide
  obtain rfl | rfl | rfl | rfl := four i
  · obtain rfl := PointReg.holds.inj (h0.symm.trans h)
    refine ⟨?_, ?_, ?_⟩ <;> decide +kernel
  · obtain rfl := PointReg.holds.inj (h1.symm.trans h)
    exact True.intro
  · obtain rfl := PointReg.holds.inj (h2.symm.trans h)
    refine ⟨?_, ?_, ?_⟩ <;> decide +kernel
  · cases h3.symm.trans h

/-- The configuration of `rich` passes the checks of COMMIT. -/
theorem rich_checked :
    (∀ sel : CfgSel, rich.cv[sel.index] = true) ∧ rich.P % 2 = 1 ∧ 3 ≤ rich.P ∧
      rich.A < rich.P ∧ rich.B < rich.P ∧ rich.GX < rich.P ∧ rich.GY < rich.P ∧
      onCurve rich.P rich.A rich.B rich.GX rich.GY = true := by
  refine ⟨?_, by decide +kernel⟩
  intro sel
  cases sel <;> decide +kernel

/-- A block with the points, the configuration and the lock of `rich`, and no error latched, meets the invariant. -/
theorem rich_inv (b : Block) (hq : b.q = rich.q) (hc : b.cfg = rich.cfg) (hv : b.cv = rich.cv) (hl : b.locked = rich.locked)
    (he : b.err = 0) (hm : b.errcmd = 0) : b.Inv where
  points := by
    intro i p h
    have hP : ∀ sel, b.field sel = rich.field sel := fun sel => by simp [Block.field, hc]
    rw [hq] at h
    refine ⟨hl.trans (by decide +kernel), ?_⟩
    have := rich_points i p h
    simpa only [Block.P, Block.A, Block.B, hP] using this
  config := by
    intro _
    have hP : ∀ sel, b.field sel = rich.field sel := fun sel => by simp [Block.field, hc]
    have := rich_checked
    simpa only [Block.P, Block.A, Block.B, Block.GX, Block.GY, hP, hv] using this
  legalErr := .inl he
  latch := ⟨fun _ => he, fun _ => hm, fun h => absurd he h⟩

/-- `latched` meets the invariant. -/
theorem latched_inv : latched.Inv where
  points := by
    intro i p h
    have e : ∀ j : PointIdx, latched.q[j] = .empty := by decide +kernel
    rw [e i] at h
    cases h
  config := by
    intro _
    refine ⟨?_, by decide +kernel⟩
    intro sel
    cases sel <;> decide +kernel
  legalErr := .inr (by decide +kernel)
  latch := ⟨by decide +kernel, by decide +kernel, by decide +kernel⟩

theorem rich_st_inv : (st rich).Inv := by
  show rich.Inv
  exact rich_inv rich (Eq.refl _) (Eq.refl _) (Eq.refl _) (Eq.refl _) (by decide +kernel) (by decide +kernel)

/-- The same with a command in flight, whatever is still to happen. -/
theorem rich_issue_inv (events : List Event) (c : Word) : (after events (rich.issue c)).Inv := by
  show (rich.issue c).Inv
  exact rich_inv _ (Block.issue_q _ _) (Block.issue_cfg _ _) (Block.issue_cv _ _) (Block.issue_locked _ _) ((Block.issue_err rich c).trans (by decide +kernel))
    ((Block.issue_errcmd rich c).trans (by decide +kernel))

theorem rich_prime : Nat.Prime rich.P := by
  have : rich.P = 23 := by decide +kernel
  rw [this]
  norm_num

theorem witness_PrimePointCommandsComplete :
    (st rich).Inv ∧ rich.P.Prime ∧ rich.q[(0 : PointIdx)] = .holds (aff 1 11) ∧ rich.q[(2 : PointIdx)] = .holds (aff 14 18) ∧
    rich.Holds 1 5 :=
  ⟨rich_st_inv, rich_prime, by decide +kernel, by decide +kernel, by decide +kernel⟩

/-- Two points of T23 whose sum returns, and two of T21. -/
theorem witness_GroupOperationsStayOnCurve :
    (3 ≤ 23 ∧ IsCurvePoint 23 1 4 (aff 1 11) ∧ IsCurvePoint 23 1 4 (aff 14 18) ∧
      groupOp 23 1 (aff 1 11) (aff 14 18) = .ok (aff 17 14)) ∧
    (IsCurvePoint 21 1 4 (aff 0 2) ∧ groupOp 21 1 (aff 0 2) (aff 0 2) = .ok (aff 4 18)) := by
  refine ⟨⟨by decide, ⟨?_, ?_, ?_⟩, ⟨?_, ?_, ?_⟩, ?_⟩, ⟨?_, ?_, ?_⟩, ?_⟩ <;> decide +kernel

theorem witness_GroupLawsHold :
    (IsCurvePoint 23 1 4 (aff 1 11) ∧ IsCurvePoint 23 1 4 (aff 14 18) ∧ IsCurvePoint 23 1 4 .inf) ∧ Nat.Prime 23 ∧
    (4 * 1 ^ 3 + 27 * 4 ^ 2) % 23 ≠ 0 := by
  refine ⟨⟨⟨?_, ?_, ?_⟩, ⟨?_, ?_, ?_⟩, True.intro⟩, by norm_num, by decide⟩ <;> decide +kernel

theorem witness_ScalarMultiplicationIsAdditive :
    (3 ≤ 23 ∧ 23 < 2 ^ 544) ∧ IsCurvePoint 23 1 4 (aff 1 11) ∧ Nat.Prime 23 ∧ (4 * 1 ^ 3 + 27 * 4 ^ 2) % 23 ≠ 0 := by
  refine ⟨?_, ⟨?_, ?_, ?_⟩, by norm_num, by decide⟩ <;> decide +kernel

/-- A command that commits, one that fails, and the words on either side of the buffers. -/
theorem witness_DataRegisterCommandsFrame :
    destData (.madd 3 1 2) = some 3 ∧
    (∃ t, exec (.madd 3 1 2) (st rich) = .next t ∧ (t.block.err == 0 && t.block.x[3] == ofNat 4) = true) ∧
    (∃ t, exec (.madd 3 1 7) (st rich) = .next t ∧ (t.block.err == 0x11) = true) ∧ 0x100 ≤ 0x1FC ∧ 0x1FC < 0x200 :=
  ⟨rfl, answers _ _ _ (by decide +kernel), answers _ _ _ (by decide +kernel), by decide, by decide⟩

theorem witness_PointRegisterCommandsFrame :
    destPoint (.padd 3 0 2) = some 3 ∧
    (∃ t, exec (.padd 3 0 2) (st rich) = .next t ∧ (t.block.err == 0 && t.block.q[3] == .holds (aff 17 14)) = true) ∧
    (∃ t, exec (.padd 2 0 3) (st rich) = .next t ∧ (t.block.err == 0x11) = true) :=
  ⟨rfl, answers _ _ _ (by decide +kernel), answers _ _ _ (by decide +kernel)⟩

/-- Each of the four commands. -/
theorem witness_BufferAndConfigCommandsFrame :
    (destData (.st 1) = none ∧ destPoint (.st 1) = none ∧
      ∃ t, exec (.st 1) (st rich) = .next t ∧ (t.block.err == 0 && t.block.dout[0] == 5) = true) ∧
    (∃ t, exec .nop (st rich) = .next t ∧ (t.block.err == 0) = true) ∧
    (∃ t, exec (.cfgset .gx 1) (st (Block.reset.writeData 1 5)) = .next t ∧ (t.block.err == 0) = true) ∧
    (∃ t, exec .commit (st (unlocked 23 1 4 1 11)) = .next t ∧ (t.block.err == 0 && t.block.locked) = true) :=
  ⟨⟨rfl, rfl, answers _ _ _ (by decide +kernel)⟩, answers _ _ _ (by decide +kernel), answers _ _ _ (by decide +kernel),
    answers _ _ _ (by decide +kernel)⟩

/-- An engine step of PADD from a state that meets the invariant, writing a point register. -/
theorem witness_StepKeepsTheInvariant :
    (st (rich.issue 0x28302000)).Inv ∧
    ∃ t, step (st (rich.issue 0x28302000)) = .next t ∧ (t.block.q[3] == .holds (aff 17 14)) = true :=
  ⟨rich_issue_inv [] _, steps _ _ (by decide +kernel)⟩

/-- The block with these values in the data registers, every flag as it was. -/
def withX (b : Block) (v : Vector Value Config.nreg) : Block := { b with x := v }

/-- Blocks that differ in the value of one data register whose flag is 0 agree on all that can be observed. -/
theorem same_observable (b : Block) (v : Vector Value Config.nreg) (h : ∀ i : DataReg, b.xv[i] = true → b.x[i] = v[i]) :
    b.SameObservable (withX b v) :=
  ⟨Eq.refl _, h, Eq.refl _, Eq.refl _, fun _ _ => Eq.refl _, Eq.refl _, Eq.refl _, Eq.refl _, Eq.refl _, Eq.refl _, Eq.refl _, Eq.refl _⟩

/-- States around such blocks agree too. -/
theorem after_same (events : List Event) (b c : Block) (h : b.SameObservable c) :
    (after events b).SameObservable (after events c) := ⟨h, rfl, rfl⟩

/-- Two states that differ in the value of the invalid register `x[7]`: a step that answers, and one that refuses. -/
theorem witness_InvalidValuesAreUnobservable :
    (∀ events, (after events (rich.issue 0x28302000)).Inv ∧
      (after events (rich.issue 0x28302000)).SameObservable
        (after events (withX (rich.issue 0x28302000) ((rich.issue 0x28302000).x.set 7 5)))) ∧
    (∃ t, step (after [] (rich.issue 0x28302000)) = .next t ∧ (t.block.busy == false) = true) ∧
    step (after [.host (.read 0x200 4)] (rich.issue 0x28302000)) = .refused .busAccessNotPerformed := by
  refine ⟨fun events => ⟨rich_issue_inv events _, after_same events _ _ (same_observable _ _ ?_)⟩,
    steps _ _ (by decide +kernel), ?_⟩
  · decide +kernel
  · generalize rich.issue 0x28302000 = b
    rfl

/-- The engine's step of a command in flight, with nothing pending. -/
theorem runs_now (b : Block) (i : Instr) (hb : b.busy = true) (hd : decode b.cmdreg = .ok i) : (st b).Runs i :=
  ⟨⟨hb, .inl rfl⟩, hd⟩

/-- The host's write, when it is the next event. -/
theorem writes_next (offset : Nat) (v : Word) (b : Block) : (after [hostWrite offset v] b).HostWrites offset v := ⟨[], rfl⟩

/-- A reset, when it is the next event: the input, and `SRST` with bit 0 set. -/
theorem resets_next (b : Block) : (after [.hardReset] b).ResetNext ∧ (after [hostWrite 0x01C 1] b).ResetNext :=
  ⟨.inl ⟨[], rfl⟩, .inr ⟨1, by decide, writes_next _ _ b⟩⟩

/-- A locked block that steps, and one that is reset; COMMIT's step of a configuration whose checks pass. -/
theorem witness_LockedConfigurationIsFrozen :
    (rich.locked = true ∧ ∃ t, step (st (rich.issue 0x28302000)) = .next t ∧ (t.block.locked) = true) ∧
    (∃ t, step (after [.hardReset] rich) = .next t ∧ (t.block.locked == false) = true) ∧
    (let s := st ((unlocked 23 1 4 1 11).issue 0x09000000)
     s.block.locked = false ∧ s.Runs .commit ∧ Block.ConfigChecked { s.block with locked := true } ∧
       ∃ t, step s = .next t ∧ t.block.locked = true) := by
  refine ⟨⟨by decide +kernel, steps _ _ (by decide +kernel)⟩, steps _ _ (by decide +kernel), by decide +kernel,
    runs_now _ _ (by decide +kernel) (by decide +kernel), fun _ => ⟨?_, by decide +kernel⟩, steps _ _ (by decide +kernel)⟩
  intro sel
  cases sel <;> decide +kernel

/-- Engine steps that change a valid data register, a point register, and a configuration field with its flag. -/
theorem witness_OnlyResetClearsValidFlags :
    (rich.xv[1] = true ∧ rich.cv[4] = true ∧ rich.q[2] ≠ .empty) ∧
    (∃ t, step (st (rich.issue 0x03100FFF)) = .next t ∧ (t.block.x[1] != rich.x[1]) = true) ∧
    (∃ t, step (st (rich.issue 0x28302000)) = .next t ∧ (t.block.q[3] != rich.q[3]) = true) ∧
    (∃ t, step (st ((Block.reset.writeData 7 5).issue 0x08470000)) = .next t ∧ (t.block.cfg[4] == 5 && t.block.cv[4]) = true) :=
  ⟨by decide +kernel, steps _ _ (by decide +kernel), steps _ _ (by decide +kernel), steps _ _ (by decide +kernel)⟩

/-- An ST of a valid register that changes `DOUT`, and a reset that clears it. -/
theorem witness_DoutChangesOnlyByStOrReset :
    ((st (rich.issue 0x02010000)).Runs (.st 1) ∧ rich.xv[1] = true ∧
      ∃ t, step (st (rich.issue 0x02010000)) = .next t ∧ (t.block.dout != rich.dout) = true) ∧
    ((after [.hardReset] (rich.writeDout (Vector.replicate 17 7))).ResetNext ∧
      ∃ t, step (after [.hardReset] (rich.writeDout (Vector.replicate 17 7))) = .next t ∧ (t.block.dout[16] == 0) = true) :=
  ⟨⟨runs_now _ _ (by decide +kernel) (by decide +kernel), by decide +kernel, steps _ _ (by decide +kernel)⟩,
    (resets_next _).1, steps _ _ (by decide +kernel)⟩

/-- A state with an error latched, and under it each event the statement names: the two resets, `ERRCLR`, the first and the last
`DIN` word, a read; and a `CMD` write, which is none of the first three. -/
theorem witness_LatchedErrorBlocksCommands :
    (∀ events, (after events latched).Inv) ∧ latched.err ≠ 0 ∧
    ((after [.hardReset] latched).ResetNext ∧ (after [hostWrite 0x01C 1] latched).ResetNext) ∧
    ((after [hostWrite 0x00C 7] latched).HostWrites 0x00C 7 ∧
      ∃ t, step (after [hostWrite 0x00C 7] latched) = .next t ∧ (t.block.err == 0) = true) ∧
    ((after [hostWrite 0x100 7] latched).HostWrites (0x100 + 4 * (0 : Fin 17).val) 7 ∧
      ∃ t, step (after [hostWrite 0x140 7] latched) = .next t ∧ (t.block.din[16] == 7) = true) ∧
    (after [hostRead 0x004] latched).HostReads 0x004 ∧
    ((¬(after [hostWrite 0x000 4] latched).ResetNext ∧ (∀ v, ¬(after [hostWrite 0x000 4] latched).HostWrites 0x00C v) ∧
        ∀ (i : Fin 17) (v : Word), ¬(after [hostWrite 0x000 4] latched).HostWrites (0x100 + 4 * i.val) v) ∧
      ∃ t, step (after [hostWrite 0x000 4] latched) = .next t ∧ (t.block == latched) = true) := by
  have only : ∀ (offset : Nat) (v : Word) (b : Block), (after [hostWrite 0x000 4] b).HostWrites offset v → offset = 0 := by
    rintro offset v b ⟨rest, h⟩
    have h := (List.cons.inj h).1
    simp only [hostWrite, Event.host.injEq, Transaction.write.injEq] at h
    exact h.1.symm
  refine ⟨fun _ => latched_inv, by decide +kernel, resets_next _, ⟨writes_next _ _ _, steps _ _ (by decide +kernel)⟩,
    ⟨writes_next _ _ _, steps _ _ (by decide +kernel)⟩, ⟨[], rfl⟩, ⟨?_, fun v h => ?_, fun i v h => ?_⟩,
    steps _ _ (by decide +kernel)⟩
  · rintro (⟨rest, h⟩ | ⟨v, _, h⟩)
    · cases (List.cons.inj h).1
    · have := only _ _ _ h
      omega
  · have := only _ _ _ h
    omega
  · have := only _ _ _ h
    omega

/-- A block that holds the reset values and another value in the invalid `x[0]`. -/
theorem witness_ResetValues : (withX Block.reset (Block.reset.x.set 0 5)).IsReset := by
  refine ⟨by decide, by decide, ?_, rfl, by decide, by decide, rfl, rfl, rfl, rfl⟩
  intro sel
  cases sel <;> decide

theorem witness_BothResetsGiveTheResetState :
    ((after [.host (.write 0x01C 4 1)] latched).pending = .host (.write 0x01C 4 1) :: [] ∧ (1 : Word).getLsbD 0 = true) ∧
    ((after [.host (.write 0x01C 4 0xFFFFFFFE)] t23).pending = .host (.write 0x01C 4 0xFFFFFFFE) :: [] ∧
      (0xFFFFFFFE : Word).getLsbD 0 = false) ∧
    (after [.hardReset] t23).pending = .hardReset :: [] := by decide +kernel

theorem witness_ErrclrReturnsFromTheError :
    (let s := after [hostWrite 0x00C 0, hostWrite 0x000 0x03100004] latched
     s.pending = .host (.write 0x00C 4 0) :: [.host (.write 0x000 4 0x03100004)] ∧ s.block.busy = false) ∧
    (let s := after [hostWrite 0x00C 7] (rich.issue 0x28302000)
     s.pending = .host (.write 0x00C 4 7) :: [] ∧ s.block.busy = true ∧ s.Inv) :=
  ⟨by decide +kernel, by decide +kernel, by decide +kernel, rich_issue_inv _ _⟩

/-- The first and the last word of `DIN`. -/
theorem witness_DinWritesAndReads :
    ((after [.host (.write 0x100 4 7)] latched).pending = .host (.write (0x100 + 4 * (0 : Fin 17).val) 4 7) :: [] ∧
      latched.busy = false) ∧
    ((after [.host (.write 0x140 4 7)] (t23.issue 0)).pending = .host (.write (0x100 + 4 * (16 : Fin 17).val) 4 7) :: [] ∧
      (t23.issue 0).busy = true) := by decide +kernel

theorem witness_BusReadsReturnTheMap :
    ∀ offset ∈ [0x000, 0x0FC, 0x100, 0x140, 0x144, 0x17C, 0x180, 0x1FC],
      offset % 4 = 0 ∧ offset < 0x200 ∧ (after [.host (.read offset 4)] t23).pending = .host (.read offset 4) :: [] := by decide

theorem witness_OtherBusWritesDoNothing :
    ∀ offset ∈ [0x004, 0x008, 0x010, 0x018, 0x020, 0x0FC, 0x144, 0x17C, 0x180, 0x1FC],
      offset % 4 = 0 ∧ offset < 0x200 ∧ offset ≠ 0x000 ∧ offset ≠ 0x00C ∧ offset ≠ 0x01C ∧
      (offset < 0x100 ∨ 0x100 + 4 * 17 ≤ offset) ∧
      (after [.host (.write offset 4 1)] t23).pending = .host (.write offset 4 1) :: [] := by decide

/-- A byte, a misaligned word, the first word past the window; and the last word of the window, which is performed. -/
theorem witness_UnperformedAccessIsRefused :
    ((after [.host (.read 0x100 1)] t23).pending = .host (.read 0x100 1) :: [] ∧ 1 ≠ 4) ∧
    ((after [.host (.write 0x102 4 5)] t23).pending = .host (.write 0x102 4 5) :: [] ∧ 0x102 % 4 ≠ 0) ∧
    ((after [.host (.read 0x200 4)] t23).pending = .host (.read 0x200 4) :: [] ∧ 0x200 ≤ 0x200) ∧
    ((after [.host (.read 0x1FC 4)] t23).pending = .host (.read 0x1FC 4) :: [] ∧ 0x1FC % 4 = 0 ∧ 0x1FC < 0x200) := by decide

theorem witness_WhileBusyTheHostOnlyReadsOrResets :
    (rich.issue 0x28302000).busy = true ∧
    (after [.host (.read 0x1FC 4)] (rich.issue 0x28302000)).pending = .host (.read 0x1FC 4) :: [] ∧
    ((after [.host (.write 0x01C 4 2)] (rich.issue 0x28302000)).pending = .host (.write 0x01C 4 2) :: [] ∧
      ¬(0x01C = 0x01C ∧ (2 : Word).getLsbD 0 = true)) ∧
    (after [.host (.write 0x01C 4 1)] (rich.issue 0x28302000)).pending = .host (.write 0x01C 4 1) :: [] := by decide +kernel

theorem witness_StoredLimbsLoadBack :
    rich.xv[1] = true ∧ ∃ t, exec (.st 1) (st rich) = .next t ∧ (t.block.err == 0) = true :=
  ⟨by decide +kernel, answers _ _ _ (by decide +kernel)⟩

end Sys2Proof.Tests
end

/-! The state and its window: what the words of the window hold bit by bit, what a host's write and the two resets make of a state,
what a step can do to the configuration, and the statements of 10_state.md that follow. -/

namespace Sys2Proof.Machine

/-! ### Steps of the host and of the reset input -/

/-- A host write that the window performs is `busWrite` on the block, in one step. -/
theorem step_write (s : State) (rest : List Event) (offset : Nat) (v : Word)
    (h : s.pending = .host (.write offset 4 v) :: rest) (hp : accessPerformed offset 4 = true) :
    step s = .next { s with pending := rest, block := s.block.busWrite offset v } := by
  simp [step, advance, h, happen, State.hostAccess, Block.busAccess, hp]

theorem step_hardReset (s : State) (rest : List Event) (h : s.pending = .hardReset :: rest) :
    step s = .next { s with pending := rest, block := Block.reset } := by
  simp [step, advance, h, happen, hardReset]

/-- The engine's step of a command is its meaning, applied to a state with the same block. -/
theorem step_of_runs (s : State) (i : Instr) (h : s.Runs i) : ∃ u : State, u.block = s.block ∧ step s = exec i u := by
  obtain ⟨⟨hb, hp⟩, hd⟩ := h
  rcases hp with hp | ⟨rest, hp⟩
  · exact ⟨s, rfl, by simp [step, advance, hp, engineTurn, hb, engineStep, hd]⟩
  · exact ⟨{ s with pending := rest }, rfl, by simp [step, advance, hp, happen, engineTurn, hb, engineStep, hd]⟩

/-! ### The registers of the window that are written -/

theorem Block.busWrite_cmd (b : Block) (c : Word) : b.busWrite 0x000 c = b.writeCmd c := rfl

theorem Block.busWrite_errclr (b : Block) (v : Word) : b.busWrite 0x00C v = b.writeErrclr := rfl

theorem Block.busWrite_srst (b : Block) (v : Word) : b.busWrite 0x01C v = b.writeSrst v := rfl

theorem Block.writeCmd_accepted (b : Block) (c : Word) (hb : b.busy = false) (he : b.err = 0) :
    b.writeCmd c = b.issue c := by
  simp [Block.writeCmd, hb, he]

theorem Block.writeCmd_dropped (b : Block) (c : Word) (h : b.busy = true ∨ b.err ≠ 0) : b.writeCmd c = b := by
  refine if_neg fun ha => ?_
  simp only [Bool.and_eq_true, Bool.not_eq_true', beq_iff_eq] at ha
  obtain ⟨hb, he⟩ := ha
  rcases h with h | h
  · simp [hb] at h
  · exact h he

theorem Block.writeErrclr_idle (b : Block) (h : b.busy = false) : b.writeErrclr = b.clearError := by
  simp [Block.writeErrclr, h]

theorem Block.writeErrclr_busy (b : Block) (h : b.busy = true) : b.writeErrclr = b := by
  simp [Block.writeErrclr, h]

theorem Block.writeSrst_set (b : Block) (v : Word) (h : v.getLsbD 0 = true) : b.writeSrst v = Block.reset := by
  simp only [Block.writeSrst, h, if_true]

theorem Block.writeSrst_clear (b : Block) (v : Word) (h : v.getLsbD 0 = false) : b.writeSrst v = b := by
  simp only [Block.writeSrst, h, Bool.false_eq_true, if_false]

theorem step_cmd_accepted (s : State) (rest : List Event) (c : Word) (h : s.pending = .host (.write 0x000 4 c) :: rest)
    (hb : s.block.busy = false) (he : s.block.err = 0) :
    step s = .next { s with pending := rest, block := s.block.issue c } := by
  rw [step_write s rest _ c h (by decide), Block.busWrite_cmd, Block.writeCmd_accepted _ _ hb he]

/-! ### The registers of the window that are read -/

theorem Block.busRead_cmd (b : Block) : b.busRead 0x000 = b.cmdreg := rfl

theorem Block.busRead_status (b : Block) : b.busRead 0x004 = b.status := rfl

theorem Block.busRead_errclr (b : Block) : b.busRead 0x00C = 0 := rfl

theorem Block.busRead_rvalid (b : Block) : b.busRead 0x010 = b.rvalid := rfl

theorem Block.busRead_pstat (b : Block) : b.busRead 0x014 = b.pstat := rfl

theorem Block.busRead_param (b : Block) : b.busRead 0x018 = 0x00004811 := rfl

theorem Block.busRead_srst (b : Block) : b.busRead 0x01C = 0 := rfl

/-- A performed read leaves the block and answers the word. -/
theorem Block.busAccess_read (b : Block) (offset : Nat) (hp : accessPerformed offset 4 = true) :
    b.busAccess (.read offset 4) = (b, .data (b.busRead offset)) := by
  simp [Block.busAccess, hp]

/-! ### Bits of a status word -/

theorem getLsbD_place {n : Nat} (f : BitVec n) (lo i : Nat) :
    (place f lo).getLsbD i = (decide (i < 32) && decide (lo ≤ i) && f.getLsbD (i - lo)) := by
  by_cases h : i < 32 <;> by_cases hl : lo ≤ i <;> simp [place, h, hl]

theorem getLsbD_flagAt (p : Bool) (lo i : Nat) : (flagAt p lo).getLsbD i = (decide (i < 32) && decide (i = lo) && p) := by
  rw [flagAt, getLsbD_place, BitVec.getLsbD_ofBool]
  by_cases h : i = lo
  · simp [h]
  · by_cases hl : lo ≤ i
    · have : i - lo ≠ 0 := by omega
      simp [h, this]
    · simp [h, hl]

theorem Block.errf_eq (b : Block) : b.errf = decide (b.err ≠ 0) := by
  rw [Bool.eq_iff_iff]
  simp [Block.errf]

/-- STATUS bit by bit (10_state.md R31). -/
theorem Block.status_getLsbD (b : Block) (i : Nat) (hi : i < 32) :
    b.status.getLsbD i =
      if i = 0 then b.busy else if i = 1 then b.locked else if i = 2 then decide (b.err ≠ 0)
      else if 8 ≤ i ∧ i < 16 then b.err.getLsbD (i - 8) else false := by
  simp only [Block.status, Block.errf_eq, BitVec.getLsbD_or, getLsbD_flagAt, getLsbD_place, hi, decide_true, Bool.true_and]
  split_ifs with h0 h1 h2 herr
  · simp [h0]
  · simp [h1]
  · simp [h2]
  · simp [h0, h1, h2, herr]
  · have high : 8 ≤ i → b.err.getLsbD (i - 8) = false := fun h => BitVec.getLsbD_of_ge _ _ (by omega)
    by_cases h8 : 8 ≤ i <;> simp [h0, h1, h2, h8, high]

theorem Block.rvalid_getLsbD_xv (b : Block) (i : DataReg) : b.rvalid.getLsbD i.val = b.xv[i] := by
  simp only [Block.rvalid, BitVec.getLsbD_or, getLsbD_flagAt]
  fin_cases i <;> simp

theorem Block.rvalid_getLsbD_cv (b : Block) (sel : CfgSel) : b.rvalid.getLsbD (8 + sel.index.val) = b.cv[sel.index] := by
  simp only [Block.rvalid, BitVec.getLsbD_or, getLsbD_flagAt]
  cases sel <;> simp [CfgSel.index]

theorem Block.rvalid_getLsbD_reserved (b : Block) (i : Nat) (hi : 13 ≤ i) : b.rvalid.getLsbD i = false := by
  have off : ∀ p lo, lo < 13 → (flagAt p lo).getLsbD i = false := by
    intro p lo hlo
    rw [getLsbD_flagAt, decide_eq_false (by omega : i ≠ lo)]
    simp
  simp [Block.rvalid, off]

/-- PSTAT: the tag of each point register stands in its two bits (10_state.md R35). -/
theorem Block.pstat_extractLsb' (b : Block) (i : PointIdx) : b.pstat.extractLsb' (2 * i.val) 2 = b.q[i].tag := by
  ext j hj
  rw [BitVec.getElem_extractLsb', ← BitVec.getLsbD_eq_getElem]
  simp only [Block.pstat, BitVec.getLsbD_or, getLsbD_place]
  fin_cases i <;> interval_cases j <;> simp

theorem Block.pstat_getLsbD_reserved (b : Block) (i : Nat) (hi : 8 ≤ i) : b.pstat.getLsbD i = false := by
  have off : ∀ (f : BitVec 2) lo, lo < 7 → (place f lo).getLsbD i = false := by
    intro f lo hlo
    rw [getLsbD_place, BitVec.getLsbD_of_ge _ _ (by omega), Bool.and_false]
  simp [Block.pstat, off]

/-! ### The reset state -/

theorem CfgSel.exists_index (i : Fin Config.ncfg) : ∃ sel : CfgSel, sel.index = i := by
  fin_cases i
  · exact ⟨.p, rfl⟩
  · exact ⟨.a, rfl⟩
  · exact ⟨.b, rfl⟩
  · exact ⟨.gx, rfl⟩
  · exact ⟨.gy, rfl⟩

theorem Block.reset_isReset : Block.reset.IsReset := by
  constructor <;> simp [Block.reset]

/-- Two blocks that hold the reset values differ only in values that cannot be observed. -/
theorem Block.IsReset.sameObservable {b c : Block} (hb : b.IsReset) (hc : c.IsReset) : b.SameObservable c where
  xv := Vector.ext fun i hi => (hb.xv ⟨i, hi⟩).trans (hc.xv ⟨i, hi⟩).symm
  x r hr := by simp [hb.xv r] at hr
  q := Vector.ext fun i hi => (hb.q ⟨i, hi⟩).trans (hc.q ⟨i, hi⟩).symm
  cv := Vector.ext fun i hi => by
    obtain ⟨sel, hsel⟩ := CfgSel.exists_index ⟨i, hi⟩
    have := (hb.cv sel).trans (hc.cv sel).symm
    simpa [hsel] using this
  cfg sel hsel := by simp [hb.cv sel] at hsel
  locked := hb.locked.trans hc.locked.symm
  din := Vector.ext fun i hi => (hb.din ⟨i, hi⟩).trans (hc.din ⟨i, hi⟩).symm
  dout := Vector.ext fun i hi => (hb.dout ⟨i, hi⟩).trans (hc.dout ⟨i, hi⟩).symm
  cmdreg := hb.cmdreg.trans hc.cmdreg.symm
  busy := hb.busy.trans hc.busy.symm
  err := hb.err.trans hc.err.symm
  errcmd := hb.errcmd.trans hc.errcmd.symm

/-- Blocks that agree on all that can be observed give the same word at every offset of the window. -/
theorem Block.SameObservable.busRead_eq {b c : Block} (h : b.SameObservable c) (offset : Nat) :
    b.busRead offset = c.busRead offset := by
  simp only [Block.busRead, Block.status, Block.errf, Block.rvalid, Block.pstat, h.cmdreg, h.busy, h.locked, h.err, h.errcmd,
    h.xv, h.cv, h.q, h.din, h.dout]

/-! ### The configuration over a step -/

theorem Block.allSet_eq_true (b : Block) : b.allSet = true ↔ ∀ sel : CfgSel, b.cv[sel.index] = true := by
  simp only [Block.allSet, Bool.and_eq_true]
  constructor
  · rintro ⟨⟨⟨⟨h0, h1⟩, h2⟩, h3⟩, h4⟩ sel
    cases sel with
    | p => exact h0
    | a => exact h1
    | b => exact h2
    | gx => exact h3
    | gy => exact h4
  · exact fun h => ⟨⟨⟨⟨h .p, h .a⟩, h .b⟩, h .gx⟩, h .gy⟩

/-- The checks of COMMIT pass exactly when the block, locked, has the configuration that `ConfigChecked` asks for
(40_config_and_data_movement.md R127). -/
theorem Block.checkConfig_eq_ok (b : Block) : b.checkConfig = .ok () ↔ b.lock.ConfigChecked := by
  have body : b.lock.ConfigChecked ↔ b.allSet = true ∧ b.P % 2 = 1 ∧ 3 ≤ b.P ∧
      b.A < b.P ∧ b.B < b.P ∧ b.GX < b.P ∧ b.GY < b.P ∧ onCurve b.P b.A b.B b.GX b.GY = true := by
    rw [Block.allSet_eq_true]
    exact ⟨fun h => h rfl, fun h _ => h⟩
  rw [body]
  unfold Block.checkConfig
  constructor
  · intro h
    split at h
    · cases h
    split at h
    · cases h
    split at h
    · cases h
    split at h
    · cases h
    rename_i hset hP hle hcurve
    simp only [Bool.not_eq_true', Bool.not_eq_false] at hset hcurve
    exact ⟨hset, by omega, by omega, by omega, by omega, by omega, by omega, hcurve⟩
  · rintro ⟨hset, hodd, h3, hA, hB, hX, hY, hcurve⟩
    rw [if_neg (by simp [hset]), if_neg (by omega), if_neg (by omega), if_neg (by simp [hcurve])]

/-- COMMIT locks an unlocked block whose checks pass. -/
theorem exec_commit_ok (s : State) (hl : s.block.locked = false) (hc : s.block.checkConfig = .ok ()) :
    exec .commit s = .next { s with block := { s.block.lock with busy := false } } := by
  show s.settle (s.block.needUnlocked >>= fun _ => s.block.checkConfig >>= fun _ => pure s.block.lock) = _
  rw [(Block.needUnlocked_eq_ok s.block ()).2 hl, hc]
  rfl

/-- All that a command can do to the configuration: nothing; the field of a CFGSET, while unlocked; `LOCKED`, when the checks of a
COMMIT pass. -/
theorem exec_configuration (i : Instr) (s t : State) (h : exec i s = .next t) :
    (t.block.cfg = s.block.cfg ∧ t.block.cv = s.block.cv ∧ t.block.locked = s.block.locked) ∨
      (∃ sel r v, i = .cfgset sel r ∧ s.block.locked = false ∧ t.block = { s.block.writeField sel v with busy := false }) ∨
      (i = .commit ∧ s.block.locked = false ∧ s.block.checkConfig = .ok () ∧
        t.block = { s.block.lock with busy := false }) := by
  obtain ⟨r, hr, hw⟩ := exec_writes i s
  obtain ⟨_, _, ⟨b, hb, ht⟩ | ⟨e, _, ht⟩⟩ := State.settle_cases s t r (hr.symm.trans h)
  · rcases hw b hb with ⟨d, v, _, _, rfl⟩ | ⟨d, p, _, _, _, rfl⟩ | ⟨_, rfl⟩ | ⟨r, w, _, rfl⟩ | ⟨sel, r, v, hi, hl, rfl⟩ |
      ⟨hi, hl, hc, rfl⟩
    · simp [ht]
    · simp [ht]
    · simp [ht]
    · simp [ht]
    · exact .inr (.inl ⟨sel, r, v, hi, hl, ht⟩)
    · exact .inr (.inr ⟨hi, hl, hc, ht⟩)
  · simp [ht]

/-- All that a step can do to the configuration, with the event that does it. -/
theorem step_configuration (s t : State) (h : step s = .next t) :
    (t.block.cfg = s.block.cfg ∧ t.block.cv = s.block.cv ∧ t.block.locked = s.block.locked) ∨
      (s.ResetNext ∧ t.block = Block.reset) ∨
      (∃ sel r v, s.Runs (.cfgset sel r) ∧ s.block.locked = false ∧
        t.block = { s.block.writeField sel v with busy := false }) ∨
      (s.Runs .commit ∧ s.block.locked = false ∧ s.block.checkConfig = .ok () ∧
        t.block = { s.block.lock with busy := false }) := by
  rcases step_cases s t h with ht | hreset | ⟨i, hi, u, hu, he⟩ | ⟨_, _, ht⟩ | ⟨c, _, _, _, ht⟩ | ⟨v, _, _, ht⟩ |
    ⟨i, v, _, _, ht⟩
  · simp [ht]
  · exact .inr (.inl hreset)
  · rcases hu ▸ exec_configuration i u t he with hsame | ⟨sel, r, v, rfl, hl, ht⟩ | ⟨rfl, hl, hc, ht⟩
    · exact .inl hsame
    · exact .inr (.inr (.inl ⟨sel, r, v, hi, hl, ht⟩))
    · exact .inr (.inr (.inr ⟨hi, hl, hc, ht⟩))
  · simp [ht]
  · simp [ht]
  · simp [ht]
  · simp [ht]

/-- Settles O44: of the four things a step can do to the configuration, only a reset starts from `LOCKED = 1` and changes it, and only
COMMIT's step sets `LOCKED`. -/
theorem lockedConfigurationIsFrozen : Obligations.LockedConfigurationIsFrozen := by
  refine ⟨rfl, fun s t h => ⟨fun hl => ?_, fun hl htl => ?_, fun hl hrun hconf => ?_⟩⟩
  · rcases step_configuration s t h with ⟨hcfg, hcv, hlocked⟩ | ⟨hreset, ht⟩ | ⟨_, _, _, _, hu, _⟩ | ⟨_, hu, _⟩
    · exact .inr ⟨hlocked.trans hl, hcfg, hcv⟩
    · exact .inl ⟨hreset, ht ▸ Block.reset_isReset⟩
    · simp [hl] at hu
    · simp [hl] at hu
  · rcases step_configuration s t h with ⟨_, _, hlocked⟩ | ⟨_, ht⟩ | ⟨_, _, _, _, _, ht⟩ | ⟨hrun, _, hc, ht⟩
    · simp [hlocked, hl] at htl
    · simp [ht, Block.reset] at htl
    · simp [ht, hl] at htl
    · exact ⟨hrun, ht ▸ s.block.checkConfig_eq_ok.1 hc⟩
  · obtain ⟨u, hu, hs⟩ := step_of_runs s _ hrun
    rw [hs, exec_commit_ok u (by rw [hu, hl]) (by rw [hu]; exact s.block.checkConfig_eq_ok.2 hconf)] at h
    cases h
    rfl

/-! ### The registers of the block on the bus -/

/-- Settles O8: the write is `busWrite`, which issues the word or drops it. -/
theorem cmdWriteIssuesOrIsDropped : Obligations.CmdWriteIssuesOrIsDropped := by
  refine ⟨fun s rest c h => ⟨step_cmd_accepted s rest c h, fun hd => ?_⟩, Block.busRead_cmd, rfl⟩
  rw [step_write s rest _ c h (by decide), Block.busWrite_cmd, Block.writeCmd_dropped _ _ hd]

/-- Settles O48: the block after reset holds the values of R41, and every block that does agrees with it on all that can be observed. -/
theorem resetValues : Obligations.ResetValues := by
  obtain ⟨xv, q, cv, locked, din, dout, cmdreg, busy, err, errcmd⟩ := Block.reset_isReset
  refine ⟨xv, q, cv, locked, fun i => ⟨din i, dout i⟩, cmdreg, busy, err, errcmd, fun c hc => ?_⟩
  have same : Block.reset.SameObservable c := Block.reset_isReset.sameObservable hc
  exact ⟨same, same.busRead_eq⟩

/-- Settles O49: both resets leave `Block.reset`. -/
theorem bothResetsGiveTheResetState : Obligations.BothResetsGiveTheResetState := by
  refine ⟨Block.reset, Block.reset_isReset, rfl, fun s rest v h => ⟨fun hv => ?_, fun hv => ?_⟩, step_hardReset,
    Block.busRead_srst⟩
  · rw [step_write s rest _ v h (by decide), Block.busWrite_srst, Block.writeSrst_set _ _ hv]
  · rw [step_write s rest _ v h (by decide), Block.busWrite_srst, Block.writeSrst_clear _ _ hv]

/-- Settles O50: the cleared latch meets the condition under which a `CMD` write is accepted; while `BUSY = 1` the invariant says that
no error is latched. -/
theorem errclrReturnsFromTheError : Obligations.ErrclrReturnsFromTheError := by
  refine ⟨fun s rest v c h => ⟨fun hb => ⟨?_, fun hinv => ?_⟩, fun hb => ⟨_, ?_, rfl, fun rest' hrest => ?_⟩⟩,
    Block.busRead_errclr⟩
  · rw [step_write s rest _ v h (by decide), Block.busWrite_errclr, Block.writeErrclr_busy _ hb]
  · obtain ⟨hidle, _, _⟩ := hinv.latch
    exact hidle hb
  · rw [step_write s rest _ v h (by decide), Block.busWrite_errclr, Block.writeErrclr_idle _ hb]
    rfl
  · exact step_cmd_accepted _ rest' c hrest hb rfl

/-- Settles O54: the bits of the three status words, one lemma per field of the word. -/
theorem statusWordsBitByBit : Obligations.StatusWordsBitByBit := by
  simp only [Obligations.StatusWordsBitByBit, Block.busRead_status, Block.busRead_rvalid, Block.busRead_pstat]
  refine ⟨fun b => ⟨b.status_getLsbD, b.rvalid_getLsbD_xv, b.rvalid_getLsbD_cv, b.rvalid_getLsbD_reserved, fun i => ?_,
    b.pstat_getLsbD_reserved, b.busRead_param, fun offset hmem => ?_⟩, by decide, by decide, by decide⟩
  · exact b.pstat_extractLsb' i
  · have performed : ∀ offset ∈ [0x004, 0x010, 0x014, 0x018], accessPerformed offset 4 = true := by decide
    exact b.busAccess_read offset (performed offset hmem)

end Sys2Proof.Machine

/-! The register window as memory: which register stands at which offset, what a host's read and write of each make of a state, what a
step can do to `DOUT`, and the statements of 20_memory.md that follow. -/

namespace Sys2Proof.Machine

/-! ### The register at an offset of the window (20_memory.md R61) -/

/-- Every access of 4 bytes at an aligned offset inside the window is performed (20_memory.md R64). -/
theorem accessPerformed_of_aligned (offset : Nat) (ha : offset % 4 = 0) (hin : offset < 0x200) :
    accessPerformed offset 4 = true := by
  simp [accessPerformed, ha, hin]

theorem windowReg_din (i : Fin Config.limbs) : windowReg (0x100 + 4 * i.val) = .din i := by
  decide +revert

theorem windowReg_dout (i : Fin Config.limbs) : windowReg (0x180 + 4 * i.val) = .dout i := by
  decide +revert

/-- The reserved range of the window. -/
theorem windowReg_reserved (offset : Nat) (hlo : 0x020 ≤ offset) (hhi : offset < 0x100) : windowReg offset = .reserved := by
  simp (disch := omega) only [windowReg, if_neg, if_pos]

/-- The words of the `DIN` range that do not exist (20_memory.md R66). -/
theorem windowReg_din_beyond (i : Nat) (hlo : 17 ≤ i) (hhi : i < 32) : windowReg (0x100 + 4 * i) = .reserved := by
  have hdin : ¬(0x100 + 4 * i) / 4 - 0x40 < 17 := by omega
  simp (disch := omega) only [windowReg, if_neg, dif_neg hdin, if_pos]

/-- The words of the `DOUT` range that do not exist (20_memory.md R68). -/
theorem windowReg_dout_beyond (i : Nat) (hlo : 17 ≤ i) (hhi : i < 32) : windowReg (0x180 + 4 * i) = .reserved := by
  have hdin : ¬(0x180 + 4 * i) / 4 - 0x40 < 17 := by omega
  have hdout : ¬(0x180 + 4 * i) / 4 - 0x60 < 17 := by omega
  simp (disch := omega) only [windowReg, if_neg, dif_neg hdin, dif_neg hdout]

/-! ### Reads of the window -/

/-- A host read that the window performs leaves the block and records the word, in one step. -/
theorem step_read (s : State) (rest : List Event) (offset : Nat) (h : s.pending = .host (.read offset 4) :: rest)
    (hp : accessPerformed offset 4 = true) :
    step s = .next { s with pending := rest, observed := s.observed ++ [s.block.busRead offset] } := by
  simp [step, advance, h, happen, State.hostAccess, Block.busAccess_read _ _ hp]

theorem Block.busRead_errcmd (b : Block) : b.busRead 0x008 = b.errcmd := rfl

theorem Block.busRead_din (b : Block) (i : Fin Config.limbs) : b.busRead (0x100 + 4 * i.val) = b.din[i] := by
  rw [Block.busRead, windowReg_din]

theorem Block.busRead_dout (b : Block) (i : Fin Config.limbs) : b.busRead (0x180 + 4 * i.val) = b.dout[i] := by
  rw [Block.busRead, windowReg_dout]

theorem Block.busRead_reserved (b : Block) (offset : Nat) (h : windowReg offset = .reserved) : b.busRead offset = 0 := by
  rw [Block.busRead, h]

/-! ### Writes of the window -/

theorem Block.busWrite_din (b : Block) (i : Fin Config.limbs) (v : Word) :
    b.busWrite (0x100 + 4 * i.val) v = b.writeDinBus i v := by
  rw [Block.busWrite, windowReg_din]

theorem Block.busWrite_reserved (b : Block) (offset : Nat) (v : Word) (h : windowReg offset = .reserved) :
    b.busWrite offset v = b := by
  rw [Block.busWrite, h]

theorem Block.writeDinBus_idle (b : Block) (i : Fin Config.limbs) (v : Word) (h : b.busy = false) :
    b.writeDinBus i v = b.writeDin i v := by
  simp [Block.writeDinBus, h]

theorem Block.writeDinBus_busy (b : Block) (i : Fin Config.limbs) (v : Word) (h : b.busy = true) :
    b.writeDinBus i v = b := by
  simp [Block.writeDinBus, h]

/-- A write to `SRST` with bit 0 set resets the block, whatever it holds (10_state.md R37). -/
theorem step_srst_set (s : State) (rest : List Event) (v : Word) (h : s.pending = .host (.write 0x01C 4 v) :: rest)
    (hv : v.getLsbD 0 = true) : step s = .next { s with pending := rest, block := Block.reset } := by
  rw [step_write s rest _ v h (by decide), Block.busWrite_srst, Block.writeSrst_set _ _ hv]

/-- While `BUSY = 1` every write but a reset is dropped: whatever else a write can do, it does while `BUSY = 0`. -/
theorem Block.busWrite_busy (b : Block) (offset : Nat) (v : Word) (hb : b.busy = true) (ha : offset % 4 = 0)
    (hreset : ¬(offset = 0x01C ∧ v.getLsbD 0 = true)) : b.busWrite offset v = b := by
  rcases b.busWrite_cases offset v with h | ⟨hw, hv, _⟩ | ⟨_, hidle, _⟩ | ⟨_, hidle, _⟩ | ⟨_, _, hidle, _⟩
  · exact h
  · obtain ⟨_, _, srstAt, _⟩ := windowReg_offset offset ha
    exact absurd ⟨srstAt hw, hv⟩ hreset
  · simp [hb] at hidle
  · simp [hb] at hidle
  · simp [hb] at hidle

/-! ### `DOUT` over a step -/

theorem limb_toNat (v : Value) (i : Nat) : (limb v i).toNat = v.toNat / 2 ^ (32 * i) % 2 ^ 32 := by
  rw [limb, BitVec.extractLsb'_toNat, Nat.shiftRight_eq_div_pow]

/-- ST of a valid register leaves the register's limbs in `DOUT` (40_config_and_data_movement.md R122). -/
theorem exec_st_valid (s : State) (r : DataReg) (hv : s.block.xv[r] = true) :
    exec (.st r) s = .next { s with block := { s.block.writeDout (limbsOf s.block.x[r]) with busy := false } } := by
  show s.settle (s.block.source r >>= fun v => pure (s.block.writeDout (limbsOf v))) = _
  rw [(Block.source_eq_ok s.block r _).2 ⟨hv, rfl⟩]
  rfl

/-- ST of a register that is not valid only sets the latch (60_exceptions.md R236). -/
theorem exec_st_uninit (s : State) (r : DataReg) (hv : s.block.xv[r] = false) :
    exec (.st r) s = .next { s with block := s.block.raise .uninit } := by
  show s.settle (s.block.source r >>= fun v => pure (s.block.writeDout (limbsOf v))) = _
  rw [(Block.source_eq_error s.block r _).2 ⟨hv, rfl⟩]
  rfl

/-- The one command that writes `DOUT` is an ST of a valid register. -/
theorem exec_dout (i : Instr) (s t : State) (h : exec i s = .next t) :
    t.block.dout = s.block.dout ∨ ∃ r, i = .st r ∧ s.block.xv[r] = true := by
  obtain ⟨r, hr, hw⟩ := exec_writes i s
  obtain ⟨_, _, ⟨b, hb, ht⟩ | ⟨e, _, ht⟩⟩ := State.settle_cases s t r (hr.symm.trans h)
  · rcases hw b hb with ⟨d, v, _, _, rfl⟩ | ⟨d, p, _, _, _, rfl⟩ | ⟨_, rfl⟩ | ⟨r, w, rfl, _⟩ | ⟨sel, r, v, _, _, rfl⟩ |
      ⟨_, _, _, rfl⟩
    · simp [ht]
    · simp [ht]
    · simp [ht]
    · cases hv : s.block.xv[r] with
      | true => exact .inr ⟨r, rfl, hv⟩
      | false =>
        rw [exec_st_uninit s r hv] at h
        cases h
        exact .inl rfl
    · simp [ht]
    · simp [ht]
  · simp [ht]

/-- The steps that can change `DOUT` are a reset and the engine's step of an ST of a valid register. -/
theorem step_dout (s t : State) (h : step s = .next t) :
    t.block.dout = s.block.dout ∨ s.ResetNext ∨ ∃ r, s.Runs (.st r) ∧ s.block.xv[r] = true := by
  rcases step_cases s t h with ht | ⟨hreset, _⟩ | ⟨i, hi, u, hu, he⟩ | ⟨_, _, ht⟩ | ⟨c, _, _, _, ht⟩ | ⟨v, _, _, ht⟩ |
    ⟨i, v, _, _, ht⟩
  · simp [ht]
  · exact .inr (.inl hreset)
  · rcases hu ▸ exec_dout i u t he with hsame | ⟨r, rfl, hv⟩
    · exact .inl hsame
    · exact .inr (.inr ⟨r, hi, hv⟩)
  · simp [ht]
  · simp [ht]
  · simp [ht]
  · simp [ht]

/-- A reset, by either event, leaves the reset state. -/
theorem step_of_resetNext (s : State) (h : s.ResetNext) :
    ∃ rest, step s = .next { s with pending := rest, block := Block.reset } := by
  rcases h with ⟨rest, h⟩ | ⟨v, hv, rest, h⟩
  · exact ⟨rest, step_hardReset s rest h⟩
  · exact ⟨rest, step_srst_set s rest v h hv⟩

/-- Settles O46: the step of an ST writes the limbs, a reset leaves the reset block, and `step_dout` says that no other step writes
`DOUT`. -/
theorem doutChangesOnlyByStOrReset : Obligations.DoutChangesOnlyByStOrReset := by
  refine ⟨Block.busRead_dout, fun s t h => ⟨fun r hrun hv i => ?_, fun hreset i => ?_, fun hne => ?_⟩⟩
  · obtain ⟨u, hu, hs⟩ := step_of_runs s _ hrun
    rw [hs, exec_st_valid u r (by rw [hu, hv]), hu] at h
    cases h
    simp [limbsOf, limb_toNat]
  · obtain ⟨rest, hs⟩ := step_of_resetNext s hreset
    rw [hs] at h
    cases h
    exact Block.reset_isReset.dout i
  · exact (step_dout s t h).resolve_left hne

/-! ### The window on the bus -/

/-- Settles O51: the write is `busWrite`, which writes the word or drops it; the words that do not exist are reserved. -/
theorem dinWritesAndReads : Obligations.DinWritesAndReads := by
  refine ⟨fun s rest i v h => ?_, Block.busRead_din, fun b i v hlo hhi => ?_⟩
  · have hs := step_write s rest _ v h (accessPerformed_of_aligned _ (by omega) (by omega))
    rw [Block.busWrite_din] at hs
    refine ⟨fun hb => ?_, fun hb => ?_⟩
    · rw [hs, Block.writeDinBus_idle _ _ _ hb]
      rfl
    · rw [hs, Block.writeDinBus_busy _ _ _ hb]
  · have hw := windowReg_din_beyond i hlo hhi
    exact ⟨b.busRead_reserved _ hw, b.busWrite_reserved _ v hw⟩

/-- Settles O52: the step records the word, and the word of each offset is that of the register that stands there. -/
theorem busReadsReturnTheMap : Obligations.BusReadsReturnTheMap := by
  refine ⟨fun s rest offset ha hin h => step_read s rest offset h (accessPerformed_of_aligned offset ha hin), fun b =>
    ⟨b.busRead_cmd, b.busRead_status, b.busRead_errcmd, b.busRead_errclr, b.busRead_rvalid, b.busRead_pstat, b.busRead_param,
      b.busRead_srst, fun offset hlo hhi => ?_, fun i => ⟨b.busRead_din i, b.busRead_dout i⟩, fun i hlo hhi => ⟨?_, ?_⟩⟩⟩
  · exact b.busRead_reserved _ (windowReg_reserved offset hlo hhi)
  · exact b.busRead_reserved _ (windowReg_din_beyond i hlo hhi)
  · exact b.busRead_reserved _ (windowReg_dout_beyond i hlo hhi)

/-- Settles O56: a read changes nothing at any time, bit 0 of STATUS is `BUSY`, and of the writes only a reset looks past `BUSY`. -/
theorem whileBusyTheHostOnlyReadsOrResets : Obligations.WhileBusyTheHostOnlyReadsOrResets := by
  intro s rest offset v hb ha hin
  have hp := accessPerformed_of_aligned offset ha hin
  refine ⟨fun h => step_read s rest offset h hp, ?_, fun h hreset => ?_, fun h hv =>
    ⟨Block.reset, Block.reset_isReset, step_srst_set s rest v h hv⟩⟩
  · rw [Block.busRead_status, Block.status_getLsbD _ _ (by decide)]
    exact hb
  · rw [step_write s rest offset v h hp, Block.busWrite_busy _ _ _ hb ha hreset]

end Sys2Proof.Machine

/-! The command word: its fields, the row of match and mask that the classes of its fields make, which fields the decoder takes, and
the statement of 30_encoding.md R97 that follows. -/

namespace Sys2Proof

/-! ### A word is its fields (30_encoding.md R91) -/

@[simp] theorem Fields.ofWord_toWord (f : Fields) : Fields.ofWord f.toWord = f := by
  obtain ⟨op, d, s1, s2, low⟩ := f
  simp only [Fields.ofWord, Fields.toWord, place, Fields.mk.injEq]
  refine ⟨?_, ?_, ?_, ?_, ?_⟩ <;> ext k hk <;> interval_cases k <;> simp

@[simp] theorem Fields.toWord_ofWord (c : Word) : (Fields.ofWord c).toWord = c := by
  ext k hk
  interval_cases k <;> simp [Fields.ofWord, Fields.toWord, place]

/-- Words are equal when their fields are. -/
theorem Fields.ofWord_inj {c c' : Word} : Fields.ofWord c = Fields.ofWord c' ↔ c = c' :=
  (Function.LeftInverse.injective Fields.toWord_ofWord).eq_iff

/-- A word under a mask, field by field. -/
theorem Fields.ofWord_and (c m : Word) : Fields.ofWord (c &&& m) =
    ⟨(Fields.ofWord c).op &&& (Fields.ofWord m).op, (Fields.ofWord c).d &&& (Fields.ofWord m).d,
      (Fields.ofWord c).s1 &&& (Fields.ofWord m).s1, (Fields.ofWord c).s2 &&& (Fields.ofWord m).s2,
      (Fields.ofWord c).low &&& (Fields.ofWord m).low⟩ := by
  simp [Fields.ofWord, BitVec.extractLsb'_and]

/-! ### The row of a shape (30_encoding.md R96) -/

/-- The bits that are 0 in every field of the class and that a mask tests. A mask cannot test the range of
a selector: R97 states it beside the mask of CFGSET. -/
def FieldClass.mask : FieldClass → BitVec 4
  | .data => 0x8
  | .point => 0xC
  | .selector => 0x0
  | .zero => 0xF

/-- The bits 11:0 that the class makes 0 (R91, R92). -/
def LowClass.mask : LowClass → BitVec 12
  | .zero => 0xFFF
  | .imm => 0x000

/-- The row of a command with this opcode and these classes of fields. -/
def Shape.row (s : Shape) (op : BitVec 8) : EncodingRow where
  pattern := Fields.toWord ⟨op, 0, 0, 0, 0⟩
  mask := Fields.toWord ⟨0xFF, s.d.mask, s.s1.mask, s.s2.mask, s.low.mask⟩

/-- The mask says what the class says, but for the range of a selector. -/
theorem FieldClass.ok_iff_mask (k : FieldClass) (f : BitVec 4) :
    k.ok f = true ↔ f &&& k.mask = 0 ∧ (k = .selector → f.toNat ≤ 4) := by
  cases k <;> decide +revert

theorem LowClass.ok_iff_mask (k : LowClass) (f : BitVec 12) : k.ok f = true ↔ f &&& k.mask = 0 := by
  cases k with
  | zero =>
    have hall : f &&& LowClass.zero.mask = f := BitVec.and_allOnes
    simp [LowClass.ok, hall]
  | imm => simp [LowClass.ok, LowClass.mask]

/-- `(c AND mask) = match` for the row of a shape, field by field. -/
theorem Shape.row_takes_iff (s : Shape) (op : BitVec 8) (c : Word) :
    (s.row op).takes c = true ↔
      (Fields.ofWord c).op = op ∧ (Fields.ofWord c).d &&& s.d.mask = 0 ∧ (Fields.ofWord c).s1 &&& s.s1.mask = 0 ∧
        (Fields.ofWord c).s2 &&& s.s2.mask = 0 ∧ (Fields.ofWord c).low &&& s.low.mask = 0 := by
  have hall : (Fields.ofWord c).op &&& 0xFF = (Fields.ofWord c).op := BitVec.and_allOnes
  simp only [EncodingRow.takes, beq_iff_eq, Shape.row, ← Fields.ofWord_inj, Fields.ofWord_and, Fields.ofWord_toWord,
    Fields.mk.injEq, hall]

/-- Every command's row is that of the classes of its opcode; of the rows only that of CFGSET has a selector, in the field `d`. -/
theorem Instr.row_shape (i : Instr) : ∃ s, shapeOf i.fields.op = some s ∧ i.row = s.row i.fields.op ∧
    (i.row.pattern = 0x08000000 ↔ s.d = .selector) ∧ s.s1 ≠ .selector ∧ s.s2 ≠ .selector := by
  cases i <;> refine ⟨_, rfl, ?_, by simp [Instr.row], by simp, by simp⟩ <;>
    simp [Instr.row, Instr.fields, Shape.row, Fields.toWord, place, FieldClass.mask, LowClass.mask]

/-- Rows are told apart by their opcodes. -/
theorem Instr.row_eq_iff (i j : Instr) : i.row = j.row ↔ i.fields.op = j.fields.op := by
  obtain ⟨s, hs, hi, -⟩ := i.row_shape
  obtain ⟨t, ht, hj, -⟩ := j.row_shape
  refine ⟨fun h => ?_, fun h => ?_⟩
  · rw [hi, hj] at h
    simpa [Shape.row] using congrArg (fun r => (Fields.ofWord r.pattern).op) h
  · obtain rfl : s = t := Option.some.inj (by rw [← hs, h, ht])
    rw [hi, hj, h]

/-- A row takes a word, with the selector of CFGSET in its range, exactly when the word has the row's opcode and is legal by the class
columns. -/
theorem Instr.row_takes_iff_wf (j : Instr) (c : Word) :
    (j.row.takes c = true ∧ (j.row.pattern = 0x08000000 → (Fields.ofWord c).d.toNat ≤ 4)) ↔
      (Fields.ofWord c).op = j.fields.op ∧ (Fields.ofWord c).wf = true := by
  obtain ⟨s, hs, hrow, hsel, hs1, hs2⟩ := j.row_shape
  have hwf (h : (Fields.ofWord c).op = j.fields.op) : (Fields.ofWord c).wf = true ↔
      s.d.ok (Fields.ofWord c).d = true ∧ s.s1.ok (Fields.ofWord c).s1 = true ∧ s.s2.ok (Fields.ofWord c).s2 = true ∧
        s.low.ok (Fields.ofWord c).low = true := by
    simp [Fields.wf, h, hs, and_assoc]
  rw [and_congr_right hwf, hsel, hrow, Shape.row_takes_iff]
  simp only [FieldClass.ok_iff_mask, LowClass.ok_iff_mask, hs1, hs2, false_imp_iff, and_true]
  tauto

/-- Two rows that take one word agree on the bits that both masks test. -/
theorem EncodingRow.agree_of_takes {r t : EncodingRow} {c : Word} (hr : r.takes c = true) (ht : t.takes c = true) :
    r.pattern &&& t.mask = t.pattern &&& r.mask := by
  simp only [EncodingRow.takes, beq_iff_eq] at hr ht
  rw [← hr, ← ht, BitVec.and_assoc, BitVec.and_assoc, BitVec.and_comm r.mask]

/-! ### Which fields the decoder takes (30_encoding.md R93) -/

theorem decodeData_isOk_iff (f : BitVec 4) : (∃ r, decodeData f = .ok r) ↔ FieldClass.data.ok f = true := by
  simp only [decodeData, FieldClass.ok, decide_eq_true_eq]
  split <;> simp [*]

theorem decodePoint_isOk_iff (f : BitVec 4) : (∃ r, decodePoint f = .ok r) ↔ FieldClass.point.ok f = true := by
  simp only [decodePoint, FieldClass.ok, decide_eq_true_eq]
  split <;> simp [*]

theorem decodeSel_isOk_iff (f : BitVec 4) : (∃ r, decodeSel f = .ok r) ↔ FieldClass.selector.ok f = true := by
  have h : (decodeSel f).toBool = FieldClass.selector.ok f := by decide +revert
  rw [← h]
  cases decodeSel f <;> simp [Except.toBool]

theorem decodeZero_isOk_iff {n : Nat} (f : BitVec n) : (∃ u, decodeZero f = .ok u) ↔ f = 0 := by
  simp only [decodeZero]
  split <;> simp [*]

/-! ### Which words the decoder takes (30_encoding.md R97) -/

/-- The `op` column of R96. -/
def Opcode.code : Opcode → BitVec 8
  | .nop => 0x00 | .ld => 0x01 | .st => 0x02 | .li => 0x03 | .mov => 0x04 | .cfgset => 0x08 | .commit => 0x09
  | .madd => 0x10 | .mneg => 0x11 | .mmul => 0x12 | .minv => 0x13 | .mpow => 0x14 | .msqrt => 0x15
  | .pset => 0x20 | .pinf => 0x21 | .pldg => 0x22 | .pmov => 0x23 | .pgetx => 0x24 | .pgety => 0x25
  | .padd => 0x28 | .pneg => 0x29 | .pmul => 0x2A

/-- One arm of a chain of tests on the opcode: when it answers the operation, the opcode is the operation's. -/
theorem eq_code_of_ite {op b : BitVec 8} {o o' : Opcode} {m : Except Malformed Opcode} (hb : o'.code = b)
    (hm : m = .ok o → op = o.code) (h : (if op = b then .ok o' else m) = .ok o) : op = o.code := by
  split at h
  · cases h
    simp [*]
  · exact hm h

theorem decodeOp_eq_ok_iff (op : BitVec 8) (o : Opcode) : decodeOp op = .ok o ↔ op = o.code := by
  refine ⟨?_, fun h => ?_⟩
  · unfold decodeOp
    iterate 22 refine eq_code_of_ite rfl ?_
    exact nofun
  · cases o <;> rw [h] <;> rfl

theorem bind_eq_ok_iff {ε α β : Type} (m : Except ε α) (g : α → Except ε β) (b : β) :
    (m >>= g) = .ok b ↔ ∃ a, m = .ok a ∧ g a = .ok b := by
  cases m <;> simp [bind, Except.bind]

theorem bind_isOk_iff {ε α β : Type} (m : Except ε α) (g : α → Except ε β) :
    (∃ b, (m >>= g) = .ok b) ↔ ∃ a, m = .ok a ∧ ∃ b, g a = .ok b := by
  cases m <;> simp [bind, Except.bind]

/-- The operands decode to a command of the operation. -/
theorem Fields.op_of_decodeOperands {f : Fields} {o : Opcode} {i : Instr} (h : f.decodeOperands o = .ok i) :
    i.fields.op = o.code := by
  revert h
  cases o
  all_goals
    simp only [Fields.decodeOperands, bind_eq_ok_iff, forall_exists_index, and_imp, pure, Except.pure, Except.ok.injEq]
    intros
    subst i
    rfl

/-- The operands decode exactly when each field is of the class that the table gives it. -/
theorem Fields.decodeOperands_isOk_iff_wf {f : Fields} {o : Opcode} (h : f.op = o.code) :
    (∃ i, f.decodeOperands o = .ok i) ↔ f.wf = true := by
  cases o <;> simp [Fields.decodeOperands, bind_isOk_iff, pure, Except.pure, decodeData_isOk_iff, decodePoint_isOk_iff,
    decodeSel_isOk_iff, decodeZero_isOk_iff, Fields.wf, h, Opcode.code, shapeOf, FieldClass.ok, LowClass.ok, and_assoc]

/-- A word decodes as a command of a row exactly when it has the row's opcode and is legal by the class columns. -/
theorem decode_row_iff_wf (j : Instr) (c : Word) :
    (∃ i, decode c = .ok i ∧ i.row = j.row) ↔ (Fields.ofWord c).op = j.fields.op ∧ (Fields.ofWord c).wf = true := by
  simp only [decode, Fields.decode, bind_eq_ok_iff, decodeOp_eq_ok_iff, Instr.row_eq_iff]
  constructor
  · rintro ⟨i, ⟨o, hop, hi⟩, hrow⟩
    exact ⟨by rw [hop, ← hrow, Fields.op_of_decodeOperands hi], (Fields.decodeOperands_isOk_iff_wf hop).1 ⟨i, hi⟩⟩
  · rintro ⟨hop, hwf⟩
    obtain ⟨o, ho⟩ : ∃ o, decodeOp j.fields.op = .ok o := by cases j <;> exact ⟨_, rfl⟩
    rw [decodeOp_eq_ok_iff] at ho
    obtain ⟨i, hi⟩ := (Fields.decodeOperands_isOk_iff_wf (hop.trans ho)).2 hwf
    exact ⟨i, ⟨o, hop.trans ho, hi⟩, by rw [Fields.op_of_decodeOperands hi, ho]⟩

/-- Settles O4: to decode as a row's command and to be taken by the row both say that the opcode is the row's and the fields are of its
classes; two rows that took one word would agree under both masks, and no two of the table do. -/
theorem decodesExactlyTheTableRows : Obligations.DecodesExactlyTheTableRows := by
  refine ⟨fun c j => ?_, ?_, fun c => ?_⟩
  · exact (decode_row_iff_wf j c).trans (j.row_takes_iff_wf c).symm
  · have disagree : encodingTable.Pairwise fun r t => r.pattern &&& t.mask ≠ t.pattern &&& r.mask := by decide
    exact disagree.imp fun hne c ⟨hr, ht⟩ => hne (EncodingRow.agree_of_takes hr ht)
  · cases h : decode c with
    | ok i => exact .inl ⟨i, rfl⟩
    | error m => exact .inr ⟨m, rfl⟩

end Sys2Proof

/-! Multiplication and inversion modulo `P`: what `finv` answers solves the congruence, what a MINV that succeeds and an MMUL of two
residues make of a state, and the statement of 42_montgomery_multiplier.md R153 that follows. -/

namespace Sys2Proof.Machine

/-! ### The inverse function (43_modular_inverse_unit.md R160) -/

/-- Euclid's rounds keep each remainder congruent to its coefficient times `a`, so the answer is too, whatever the bound on the
rounds. -/
theorem euclid_modEq (P a : Int) (n r0 : Nat) (t0 : Int) (r1 : Nat) (t1 : Int) (h0 : r0 ≡ t0 * a [ZMOD P])
    (h1 : r1 ≡ t1 * a [ZMOD P]) : (euclid n r0 t0 r1 t1).1 ≡ (euclid n r0 t0 r1 t1).2 * a [ZMOD P] := by
  induction n generalizing r0 t0 r1 t1 with
  | zero => exact h0
  | succ n ih =>
    unfold euclid
    split
    · exact h0
    · refine ih _ _ _ _ h1 ?_
      calc ((r0 % r1 : Nat) : Int) = r0 - (r0 / r1 : Nat) * r1 := by push_cast; rw [Int.emod_def, mul_comm]
        _ ≡ t0 * a - (r0 / r1 : Nat) * (t1 * a) [ZMOD P] := h0.sub (h1.mul_left _)
        _ = (t0 - (r0 / r1 : Nat) * t1) * a := by ring

/-- What `finv` answers is a residue, and the inverse of its argument. -/
theorem lt_and_fmul_eq_one_of_finv {P a c : Nat} (hP : 1 < P) (h : finv P a = .ok c) : c < P ∧ fmul P a c = 1 := by
  have hmod := euclid_modEq P a (a + 1) P 0 a 1 (by simp [Int.ModEq]) (by simp [Int.ModEq])
  simp only [finv] at h
  split at h
  · rename_i hg
    generalize (euclid (a + 1) P 0 a 1).2 = t at h hmod
    cases h
    have hc : ((t % (P : Int)).toNat : Int) = t % P := Int.toNat_of_nonneg (Int.emod_nonneg _ (by omega))
    have hlt : t % (P : Int) < P := Int.emod_lt_of_pos _ (by omega)
    have hone : a * (t % (P : Int)).toNat ≡ 1 [ZMOD P] := calc
      (a : Int) * (t % (P : Int)).toNat = a * (t % P) := by rw [hc]
      _ ≡ a * t [ZMOD P] := (Int.mod_modEq t P).mul_left _
      _ = t * a := mul_comm _ _
      _ ≡ 1 [ZMOD P] := by simpa [hg] using hmod.symm
    exact ⟨by omega, Nat.mod_eq_of_modEq (Int.natCast_modEq_iff.1 (by exact_mod_cast hone)) hP⟩
  · cases h

/-! ### MINV that succeeds, and MMUL of residues -/

theorem ErrorCode.code_ne_zero (e : ErrorCode) : e.code ≠ 0 := by cases e <;> decide

/-- A completed command that leaves no error has committed its result. -/
theorem State.settle_of_err_eq_zero {s t : State} {r : Except ErrorCode Block} (h : s.settle r = .next t)
    (he : t.block.err = 0) : ∃ b, r = .ok b ∧ t = { s with block := { b with busy := false } } := by
  cases r with
  | ok b => cases h; exact ⟨b, rfl, rfl⟩
  | error e => cases h; exact absurd he e.code_ne_zero

theorem exec_minv_eq (d r : DataReg) (s : State) : exec (.minv d r) s = execMinv d r s := rfl

theorem exec_mmul_eq (d r1 r2 : DataReg) (s : State) : exec (.mmul d r1 r2) s = execMmul d r1 r2 s := rfl

/-- R161: a MINV that leaves no error had a valid residue as its source and wrote what `finv` answers. -/
theorem exec_minv_of_err_eq_zero {s t : State} {d r : DataReg} (h : exec (.minv d r) s = .next t) (he : t.block.err = 0) :
    s.block.locked = true ∧ s.block.xv[r] = true ∧ s.block.x[r].toNat < s.block.P ∧
      ∃ c, finv s.block.P s.block.x[r].toNat = .ok c ∧ t = s.wroteData d (ofNat c) := by
  rw [exec_minv_eq] at h
  obtain ⟨b, hb, rfl⟩ := State.settle_of_err_eq_zero h he
  obtain ⟨_, hl, hb⟩ := bind_ok _ _ _ hb
  obtain ⟨v, hv, hb⟩ := bind_ok _ _ _ hb
  obtain ⟨a, ha, hb⟩ := bind_ok _ _ _ hb
  obtain ⟨c, hc, hb⟩ := bind_ok _ _ _ hb
  cases hb
  obtain ⟨hxv, rfl⟩ := (Block.source_eq_ok _ _ _).1 hv
  obtain ⟨hlt, rfl⟩ := (Block.residue_eq_ok _ _ _).1 ha
  exact ⟨(Block.needLocked_eq_ok _ _).1 hl, hxv, hlt, c, hc, rfl⟩

/-- R151: the MMUL of two valid residues in a configured block writes their product. -/
theorem exec_mmul_of_holds {s : State} {d r1 r2 : DataReg} {a b : Nat} (hl : s.block.locked = true) (h1 : s.block.Holds r1 a)
    (h2 : s.block.Holds r2 b) (ha : a < s.block.P) (hb : b < s.block.P) :
    exec (.mmul d r1 r2) s = .next (s.wroteData d (ofNat (fmul s.block.P a b))) := by
  obtain ⟨hv1, rfl⟩ := h1
  obtain ⟨hv2, rfl⟩ := h2
  rw [exec_mmul_eq, execMmul, (Block.needLocked_eq_ok _ ()).2 hl, (Block.source_eq_ok _ r1 _).2 ⟨hv1, rfl⟩,
    (Block.source_eq_ok _ r2 _).2 ⟨hv2, rfl⟩]
  simp only [ok_bind, (Block.residue_eq_ok _ _ _).2 ⟨ha, rfl⟩, (Block.residue_eq_ok _ _ _).2 ⟨hb, rfl⟩]
  rfl

/-! ### A data register after it is written -/

/-- A value below the modulus is kept exactly by the register it is written to. -/
theorem State.wroteData_holds_same {s : State} {d : DataReg} {n : Nat} (h : n < s.block.P) :
    (s.wroteData d (ofNat n)).block.Holds d n := by
  have hn : n < 2 ^ Config.width := h.trans (s.block.field .p).isLt
  exact ⟨by simp [State.wroteData], by simp [State.wroteData, ofNat, Nat.mod_eq_of_lt hn]⟩

/-- Every other register holds what it held. -/
theorem State.wroteData_holds_other {s : State} {d r : DataReg} (v : Value) {n : Nat} (hne : r ≠ d) (h : s.block.Holds r n) :
    (s.wroteData d v).block.Holds r n := by
  have hne : d.val ≠ r.val := fun he => hne (Fin.ext he.symm)
  simpa [State.wroteData, Block.Holds, Vector.getElem_set_ne, hne] using h

/-! ### The inverse times the value -/

/-- Settles O26: MINV leaves `r1` as it was and in `r2` the inverse that `finv` answers, and MMUL of the two writes their product. -/
theorem inverseTimesValueIsOne : Obligations.InverseTimesValueIsOne := by
  intro s t r1 r2 r3 hne hP _ hexec herr
  obtain ⟨hl, hv, ha, c, hc, rfl⟩ := exec_minv_of_err_eq_zero hexec herr
  obtain ⟨hlt, hone⟩ := lt_and_fmul_eq_one_of_finv (by omega) hc
  have hmul := exec_mmul_of_holds (s := s.wroteData r2 (ofNat c)) (d := r3) hl
    (State.wroteData_holds_other _ hne ⟨hv, rfl⟩) (State.wroteData_holds_same hlt) ha hlt
  rwa [show fmul (s.wroteData r2 (ofNat c)).block.P _ c = 1 from hone] at hmul

end Sys2Proof.Machine

/-! The group of the curve: the field functions as the operations of `ZMod P`, `group_op` as the chord and the tangent there, its
agreement with the group of Mathlib's Weierstrass curves when `P` is prime, and the statements of
45_elliptic_curve_point_adder.md R196 and R197 that follow. -/

namespace Sys2Proof.Machine

/-! ### `finv` answers exactly on the units (43_modular_inverse_unit.md R160) -/

/-- Euclid's rounds, when their bound is large enough, end with the greatest common divisor. -/
theorem euclid_fst_eq_gcd (n r0 : Nat) (t0 : Int) (r1 : Nat) (t1 : Int) (h : r1 < n) :
    (euclid n r0 t0 r1 t1).1 = Nat.gcd r1 r0 := by
  induction n generalizing r0 t0 r1 t1 with
  | zero => omega
  | succ n ih =>
    unfold euclid
    split
    · next h0 => simp [h0]
    · next h0 => rw [ih _ _ _ _ (by have := Nat.mod_lt r0 (by omega : 0 < r1); omega), ← Nat.gcd_rec]

theorem exists_finv_of_coprime {P a : Nat} (h : a.Coprime P) : ∃ c, finv P a = .ok c :=
  ⟨_, if_pos ((euclid_fst_eq_gcd _ _ _ _ _ a.lt_succ_self).trans h)⟩

theorem finv_of_not_coprime {P a : Nat} (h : ¬a.Coprime P) : finv P a = .error .noInverse :=
  if_neg fun hg => h ((euclid_fst_eq_gcd _ _ _ _ _ a.lt_succ_self).symm.trans hg)

/-! ### The field functions are the operations of `ZMod P` (R140 to R142, R150, R160) -/

section Residues
variable {P : Nat}

theorem fadd_eq_val (a b : Nat) : fadd P a b = ((a : ZMod P) + b).val := by
  rw [← Nat.cast_add, ZMod.val_natCast, fadd]

theorem fmul_eq_val (a b : Nat) : fmul P a b = ((a : ZMod P) * b).val := by
  rw [← Nat.cast_mul, ZMod.val_natCast, fmul]

variable [NeZero P]

theorem fneg_val (x : ZMod P) : fneg P x.val = (-x).val := (ZMod.neg_val' x).symm

theorem fsub_val (x y : ZMod P) : fsub P x.val y.val = (x - y).val := by
  rw [fsub, fneg_val, fadd_eq_val, ZMod.natCast_zmod_val, ZMod.natCast_zmod_val, sub_eq_add_neg]

theorem isUnit_iff_val_coprime (x : ZMod P) : IsUnit x ↔ x.val.Coprime P := by
  rw [← ZMod.isUnit_iff_coprime, ZMod.natCast_zmod_val]

theorem finv_val_of_isUnit (hP : 1 < P) {x : ZMod P} (hx : IsUnit x) : finv P x.val = .ok x⁻¹.val := by
  obtain ⟨c, hc⟩ := exists_finv_of_coprime ((isUnit_iff_val_coprime x).1 hx)
  obtain ⟨hlt, hone⟩ := lt_and_fmul_eq_one_of_finv hP hc
  have hmul : x * (c : ZMod P) = 1 := by
    rw [fmul_eq_val, ZMod.natCast_zmod_val] at hone
    rw [← ZMod.natCast_zmod_val (x * (c : ZMod P)), hone, Nat.cast_one]
  rw [hc, ZMod.inv_eq_of_mul_eq_one P x c hmul, ZMod.val_natCast_of_lt hlt]

theorem finv_val_of_not_isUnit {x : ZMod P} (hx : ¬IsUnit x) : finv P x.val = .error .noInverse :=
  finv_of_not_coprime fun h => hx ((isUnit_iff_val_coprime x).2 h)

end Residues

/-! ### The slope and the third point in `ZMod P` (R186, steps 4 to 6) -/

section Slope
variable {P : Nat}

/-- The numerator of the slope: of the tangent when the points are equal, else of the chord. -/
def slopeNum (a x1 y1 x2 y2 : ZMod P) : ZMod P := if x1 = x2 ∧ y1 = y2 then 3 * (x1 * x1) + a else y2 - y1

/-- The denominator of the slope. -/
def slopeDen (x1 y1 x2 y2 : ZMod P) : ZMod P := if x1 = x2 ∧ y1 = y2 then y1 + y1 else x2 - x1

/-- The slope of the tangent or the chord. -/
def lineSlope (a x1 y1 x2 y2 : ZMod P) : ZMod P := slopeNum a x1 y1 x2 y2 * (slopeDen x1 y1 x2 y2)⁻¹

/-- The x coordinate of the third point, on the line of slope `l`. -/
def thirdX (l x1 x2 : ZMod P) : ZMod P := l * l - x1 - x2

/-- The y coordinate of the third point, reflected. -/
def thirdY (l x1 y1 x2 : ZMod P) : ZMod P := l * (x1 - thirdX l x1 x2) - y1

@[simp] theorem slopeNum_self (a x y : ZMod P) : slopeNum a x y x y = 3 * (x * x) + a := if_pos ⟨rfl, rfl⟩

@[simp] theorem slopeDen_self (x y : ZMod P) : slopeDen x y x y = y + y := if_pos ⟨rfl, rfl⟩

theorem slopeNum_of_ne (a : ZMod P) {x1 y1 x2 y2 : ZMod P} (h : ¬(x1 = x2 ∧ y1 = y2)) :
    slopeNum a x1 y1 x2 y2 = y2 - y1 := if_neg h

theorem slopeDen_of_ne {x1 y1 x2 y2 : ZMod P} (h : ¬(x1 = x2 ∧ y1 = y2)) : slopeDen x1 y1 x2 y2 = x2 - x1 := if_neg h

/-- The slope is determined by `lam * den = num` when the denominator is a unit. -/
theorem eq_lineSlope_iff {a x1 y1 x2 y2 l : ZMod P} (hu : IsUnit (slopeDen x1 y1 x2 y2)) :
    l = lineSlope a x1 y1 x2 y2 ↔ l * slopeDen x1 y1 x2 y2 = slopeNum a x1 y1 x2 y2 := by
  rw [lineSlope, ← hu.mul_left_inj, mul_assoc, ZMod.inv_mul_of_unit _ hu, mul_one]

theorem lineSlope_mul_slopeDen (a : ZMod P) {x1 y1 x2 y2 : ZMod P} (hu : IsUnit (slopeDen x1 y1 x2 y2)) :
    lineSlope a x1 y1 x2 y2 * slopeDen x1 y1 x2 y2 = slopeNum a x1 y1 x2 y2 := (eq_lineSlope_iff hu).1 rfl

/-- Exchanging two distinct points negates the chord's denominator. -/
theorem isUnit_slopeDen_swap {x1 y1 x2 y2 : ZMod P} (hne : ¬(x1 = x2 ∧ y1 = y2)) (hu : IsUnit (slopeDen x1 y1 x2 y2)) :
    IsUnit (slopeDen x2 y2 x1 y1) := by
  rw [slopeDen_of_ne hne] at hu
  rw [slopeDen_of_ne (mt (.imp Eq.symm Eq.symm) hne), ← neg_sub]
  exact hu.neg

theorem lineSlope_swap (a : ZMod P) {x1 y1 x2 y2 : ZMod P} (hne : ¬(x1 = x2 ∧ y1 = y2))
    (hu : IsUnit (slopeDen x1 y1 x2 y2)) : lineSlope a x1 y1 x2 y2 = lineSlope a x2 y2 x1 y1 := by
  have hl := lineSlope_mul_slopeDen a hu
  have hne' : ¬(x2 = x1 ∧ y2 = y1) := mt (.imp Eq.symm Eq.symm) hne
  rw [eq_lineSlope_iff (isUnit_slopeDen_swap hne hu), slopeDen_of_ne hne', slopeNum_of_ne a hne']
  rw [slopeDen_of_ne hne, slopeNum_of_ne a hne] at hl
  linear_combination -hl

theorem thirdX_swap (l x1 x2 : ZMod P) : thirdX l x1 x2 = thirdX l x2 x1 := sub_right_comm _ _ _

/-- The reflected third point is the same from either point of a chord. -/
theorem thirdY_swap {l x1 y1 x2 y2 : ZMod P} (hl : l * (x2 - x1) = y2 - y1) : thirdY l x1 y1 x2 = thirdY l x2 y2 x1 := by
  rw [thirdY, thirdY, thirdX_swap l x2 x1]
  linear_combination -hl

/-! ### The curve (R185) -/

/-- The curve `y^2 = x^3 + A*x + B` over `ZMod P`. -/
def curve (P A B : Nat) : WeierstrassCurve.Affine (ZMod P) := ⟨0, 0, 0, A, B⟩

theorem curve_equation_iff {A B : Nat} {x y : ZMod P} :
    (curve P A B).Equation x y ↔ y * y = x * x * x + A * x + B := by
  rw [WeierstrassCurve.Affine.equation_iff]
  simp only [curve, zero_mul, add_zero, pow_succ, pow_zero, one_mul]

@[simp] theorem curve_negY (A B : Nat) (x y : ZMod P) : (curve P A B).negY x y = -y := by
  simp [WeierstrassCurve.Affine.negY, curve]

/-- The tangent meets the cubic in the third point: a polynomial identity, given the slope and the equation. -/
theorem curve_equation_tangent {A B : Nat} {x y l : ZMod P} (h : (curve P A B).Equation x y)
    (hl : l * (y + y) = 3 * (x * x) + A) : (curve P A B).Equation (thirdX l x x) (thirdY l x y x) := by
  rw [curve_equation_iff] at h ⊢
  rw [thirdY, thirdX]
  linear_combination (l * l - x - x - x) * hl + h

/-- The chord meets the cubic in the third point: the identity holds after multiplication by the unit `x2 - x1`. -/
theorem curve_equation_chord {A B : Nat} {x1 y1 x2 y2 l : ZMod P} (h1 : (curve P A B).Equation x1 y1)
    (h2 : (curve P A B).Equation x2 y2) (hu : IsUnit (x2 - x1)) (hl : l * (x2 - x1) = y2 - y1) :
    (curve P A B).Equation (thirdX l x1 x2) (thirdY l x1 y1 x2) := by
  rw [curve_equation_iff] at h1 h2 ⊢
  refine hu.mul_left_cancel ?_
  rw [thirdY, thirdX]
  linear_combination (l * l - x1 - x2 - x1) * (h2 + (l * (x2 - x1) + y1 + y2) * hl - h1) + (x2 - x1) * h1

theorem curve_equation_third {A B : Nat} {x1 y1 x2 y2 : ZMod P} (h1 : (curve P A B).Equation x1 y1)
    (h2 : (curve P A B).Equation x2 y2) (hu : IsUnit (slopeDen x1 y1 x2 y2)) :
    (curve P A B).Equation (thirdX (lineSlope A x1 y1 x2 y2) x1 x2) (thirdY (lineSlope A x1 y1 x2 y2) x1 y1 x2) := by
  have hl := lineSlope_mul_slopeDen (A : ZMod P) hu
  by_cases h : x1 = x2 ∧ y1 = y2
  · obtain ⟨rfl, rfl⟩ := h
    exact curve_equation_tangent h1 (by rwa [slopeDen_self, slopeNum_self] at hl)
  · rw [slopeDen_of_ne h, slopeNum_of_ne _ h] at hl
    exact curve_equation_chord h1 h2 (slopeDen_of_ne h ▸ hu) hl

end Slope

/-! ### Curve points with coordinates in `ZMod P` -/

section Affine
variable {P : Nat}

/-- A value below `P` is that of a residue. -/
theorem ofNat_val_toNat_cast {v : Value} (h : v.toNat < P) : ofNat (v.toNat : ZMod P).val = v := by
  rw [ZMod.val_natCast_of_lt h, ofNat, BitVec.ofNat_toNat, BitVec.setWidth_eq]

/-- The affine point whose coordinates are these residues. -/
def affinePoint (x y : ZMod P) : CurvePoint := .aff (ofNat x.val) (ofNat y.val)

variable [NeZero P]

theorem ofNat_val_toNat (hP : P < 2 ^ 544) (x : ZMod P) : (ofNat x.val).toNat = x.val := by
  simp only [ofNat, BitVec.toNat_ofNat, Config.width, Nat.mod_eq_of_lt (x.val_lt.trans hP)]

theorem groupInverse_affinePoint (hP : P < 2 ^ 544) (x y : ZMod P) :
    groupInverse P (affinePoint x y) = affinePoint x (-y) := by
  rw [affinePoint, groupInverse, ofNat_val_toNat hP, fneg_val, affinePoint]

/-- R186, steps 4 to 6: the third point, from what `finv` answers for the denominator. -/
theorem chordTangent_val (A : Nat) (x1 y1 x2 y2 : ZMod P) :
    chordTangent P A x1.val y1.val x2.val y2.val = (finv P (slopeDen x1 y1 x2 y2).val).map fun i : Nat =>
      ((thirdX (slopeNum A x1 y1 x2 y2 * (i : ZMod P)) x1 x2).val,
        (thirdY (slopeNum A x1 y1 x2 y2 * (i : ZMod P)) x1 y1 x2).val) := by
  have hval : ∀ x y : ZMod P, x.val = y.val ↔ x = y := fun _ _ => (ZMod.val_injective P).eq_iff
  have hden : (if x1 = x2 ∧ y1 = y2 then fadd P y1.val y1.val else fsub P x2.val x1.val) = (slopeDen x1 y1 x2 y2).val := by
    rw [slopeDen, fsub_val, fadd_eq_val, ZMod.natCast_zmod_val, apply_ite ZMod.val]
  have hnum : (if x1 = x2 ∧ y1 = y2 then fadd P (fmul P (3 % P) (fmul P x1.val x1.val)) A else fsub P y2.val y1.val) =
      (slopeNum A x1 y1 x2 y2).val := by
    simp only [slopeNum, fsub_val, fadd_eq_val, fmul_eq_val, ZMod.natCast_zmod_val, ZMod.natCast_mod, Nat.cast_ofNat,
      apply_ite ZMod.val]
  simp only [chordTangent, hval, decide_eq_true_eq, hden, hnum]
  cases finv P (slopeDen x1 y1 x2 y2).val with
  | error e => rfl
  | ok i => simp [fmul_eq_val, fsub_val, thirdX, thirdY, Except.map, pure, Except.pure]

theorem chordTangent_val_of_isUnit (hP : 1 < P) (A : Nat) {x1 y1 x2 y2 : ZMod P} (hu : IsUnit (slopeDen x1 y1 x2 y2)) :
    chordTangent P A x1.val y1.val x2.val y2.val =
      .ok ((thirdX (lineSlope A x1 y1 x2 y2) x1 x2).val, (thirdY (lineSlope A x1 y1 x2 y2) x1 y1 x2).val) := by
  simp only [chordTangent_val, finv_val_of_isUnit hP hu, Except.map, ZMod.natCast_zmod_val, lineSlope]

theorem chordTangent_val_of_not_isUnit (A : Nat) {x1 y1 x2 y2 : ZMod P} (hu : ¬IsUnit (slopeDen x1 y1 x2 y2)) :
    chordTangent P A x1.val y1.val x2.val y2.val = .error .noInverse := by
  rw [chordTangent_val, finv_val_of_not_isUnit hu]
  rfl

/-! ### The cases of `group_op` (R186) -/

@[simp] theorem groupOp_inf_left (P A : Nat) (T : CurvePoint) : groupOp P A .inf T = .ok T := rfl

@[simp] theorem groupOp_inf_right (P A : Nat) (S : CurvePoint) : groupOp P A S .inf = .ok S := by cases S <;> rfl

/-- Case 3, and the rest by the chord or the tangent. -/
theorem groupOp_affinePoint (hP : P < 2 ^ 544) (A : Nat) (x1 y1 x2 y2 : ZMod P) :
    groupOp P A (affinePoint x1 y1) (affinePoint x2 y2) =
      if x1 = x2 ∧ y1 = -y2 then .ok .inf
      else (chordTangent P A x1.val y1.val x2.val y2.val).map fun r => .aff (ofNat r.1) (ofNat r.2) := by
  simp only [affinePoint, groupOp, ofNat_val_toNat hP, fneg_val, (ZMod.val_injective P).eq_iff, eq_comm (a := y2),
    neg_eq_iff_eq_neg]
  rfl

theorem groupOp_affinePoint_of_neg (hP : P < 2 ^ 544) (A : Nat) {x1 y1 x2 y2 : ZMod P} (h : x1 = x2 ∧ y1 = -y2) :
    groupOp P A (affinePoint x1 y1) (affinePoint x2 y2) = .ok .inf := by
  rw [groupOp_affinePoint hP, if_pos h]

theorem groupOp_affinePoint_of_isUnit (hP1 : 1 < P) (hP : P < 2 ^ 544) (A : Nat) {x1 y1 x2 y2 : ZMod P}
    (h : ¬(x1 = x2 ∧ y1 = -y2)) (hu : IsUnit (slopeDen x1 y1 x2 y2)) :
    groupOp P A (affinePoint x1 y1) (affinePoint x2 y2) = .ok (affinePoint (thirdX (lineSlope A x1 y1 x2 y2) x1 x2)
      (thirdY (lineSlope A x1 y1 x2 y2) x1 y1 x2)) := by
  rw [groupOp_affinePoint hP, if_neg h, chordTangent_val_of_isUnit hP1 A hu]
  rfl

theorem groupOp_affinePoint_of_not_isUnit (hP : P < 2 ^ 544) (A : Nat) {x1 y1 x2 y2 : ZMod P}
    (h : ¬(x1 = x2 ∧ y1 = -y2)) (hu : ¬IsUnit (slopeDen x1 y1 x2 y2)) :
    groupOp P A (affinePoint x1 y1) (affinePoint x2 y2) = .error .noInverse := by
  rw [groupOp_affinePoint hP, if_neg h, chordTangent_val_of_not_isUnit A hu]
  rfl

/-! ### The curve equation on such points (R185) -/

theorem onCurve_val (A B : Nat) (x y : ZMod P) : onCurve P A B x.val y.val = true ↔ (curve P A B).Equation x y := by
  simp only [onCurve, fadd_eq_val, fmul_eq_val, ZMod.natCast_zmod_val, beq_iff_eq, (ZMod.val_injective P).eq_iff,
    curve_equation_iff]

theorem isCurvePoint_affinePoint (hP : P < 2 ^ 544) {A B : Nat} {x y : ZMod P} :
    IsCurvePoint P A B (affinePoint x y) ↔ (curve P A B).Equation x y := by
  simp only [IsCurvePoint, affinePoint, ofNat_val_toNat hP, x.val_lt, y.val_lt, onCurve_val, true_and]

/-- A point of the curve is `INF`, or its coordinates are residues that solve the equation. -/
theorem IsCurvePoint.cases {A B : Nat} {S : CurvePoint} (hP : P < 2 ^ 544) (h : IsCurvePoint P A B S) :
    S = .inf ∨ ∃ x y, (curve P A B).Equation x y ∧ S = affinePoint x y := by
  cases S with
  | inf => exact .inl rfl
  | aff px py =>
    obtain ⟨hx, hy, -⟩ := id h
    have hS : .aff px py = affinePoint (px.toNat : ZMod P) (py.toNat : ZMod P) := by
      rw [affinePoint, ofNat_val_toNat_cast hx, ofNat_val_toNat_cast hy]
    exact .inr ⟨_, _, (isCurvePoint_affinePoint hP).1 (hS ▸ h), hS⟩

/-! ### Closure (R196) -/

theorem groupInverse_isCurvePoint (hP : P < 2 ^ 544) {A B : Nat} {S : CurvePoint} (hS : IsCurvePoint P A B S) :
    IsCurvePoint P A B (groupInverse P S) := by
  obtain rfl | ⟨x, y, h, rfl⟩ := hS.cases hP
  · exact True.intro
  · rw [groupInverse_affinePoint hP, isCurvePoint_affinePoint hP, ← curve_negY A B x]
    exact (WeierstrassCurve.Affine.equation_neg x y).2 h

theorem groupOp_isCurvePoint (hP1 : 1 < P) (hP : P < 2 ^ 544) {A B : Nat} {S T R : CurvePoint}
    (hS : IsCurvePoint P A B S) (hT : IsCurvePoint P A B T) (h : groupOp P A S T = .ok R) : IsCurvePoint P A B R := by
  obtain rfl | ⟨x1, y1, h1, rfl⟩ := hS.cases hP
  · cases h
    exact hT
  obtain rfl | ⟨x2, y2, h2, rfl⟩ := hT.cases hP
  · cases h
    exact hS
  by_cases hneg : x1 = x2 ∧ y1 = -y2
  · rw [groupOp_affinePoint_of_neg hP A hneg] at h
    cases h
    exact True.intro
  by_cases hu : IsUnit (slopeDen x1 y1 x2 y2)
  · rw [groupOp_affinePoint_of_isUnit hP1 hP A hneg hu] at h
    cases h
    exact (isCurvePoint_affinePoint hP).2 (curve_equation_third h1 h2 hu)
  · rw [groupOp_affinePoint_of_not_isUnit hP A hneg hu] at h
    cases h

/-! ### Inverse and commutativity, for every `P` (R197) -/

theorem groupOp_groupInverse (hP : P < 2 ^ 544) {A B : Nat} {S : CurvePoint} (hS : IsCurvePoint P A B S) :
    groupOp P A S (groupInverse P S) = .ok .inf := by
  obtain rfl | ⟨x, y, -, rfl⟩ := hS.cases hP
  · rfl
  · rw [groupInverse_affinePoint hP, groupOp_affinePoint_of_neg hP A ⟨rfl, (neg_neg y).symm⟩]

/-- Every case is symmetric: the chord's denominator changes its sign and its slope does not change. -/
theorem groupOp_affinePoint_comm (hP1 : 1 < P) (hP : P < 2 ^ 544) (A : Nat) (x1 y1 x2 y2 : ZMod P) :
    groupOp P A (affinePoint x1 y1) (affinePoint x2 y2) = groupOp P A (affinePoint x2 y2) (affinePoint x1 y1) := by
  by_cases hne : x1 = x2 ∧ y1 = y2
  · rw [hne.1, hne.2]
  have hne' : ¬(x2 = x1 ∧ y2 = y1) := mt (.imp Eq.symm Eq.symm) hne
  have hswap : x2 = x1 ∧ y2 = -y1 ↔ x1 = x2 ∧ y1 = -y2 := and_congr eq_comm (eq_comm.trans neg_eq_iff_eq_neg)
  by_cases hneg : x1 = x2 ∧ y1 = -y2
  · rw [groupOp_affinePoint_of_neg hP A hneg, groupOp_affinePoint_of_neg hP A (hswap.2 hneg)]
  have hneg' := mt hswap.1 hneg
  by_cases hu : IsUnit (slopeDen x1 y1 x2 y2)
  · have hl := lineSlope_mul_slopeDen (A : ZMod P) hu
    rw [slopeDen_of_ne hne, slopeNum_of_ne _ hne] at hl
    rw [groupOp_affinePoint_of_isUnit hP1 hP A hneg hu,
      groupOp_affinePoint_of_isUnit hP1 hP A hneg' (isUnit_slopeDen_swap hne hu), ← lineSlope_swap _ hne hu, thirdX_swap,
      thirdY_swap hl]
  · rw [groupOp_affinePoint_of_not_isUnit hP A hneg hu,
      groupOp_affinePoint_of_not_isUnit hP A hneg' (mt (isUnit_slopeDen_swap hne') hu)]

theorem groupOp_comm (hP1 : 1 < P) (hP : P < 2 ^ 544) {A B : Nat} {S T : CurvePoint} (hS : IsCurvePoint P A B S)
    (hT : IsCurvePoint P A B T) : groupOp P A S T = groupOp P A T S := by
  obtain rfl | ⟨x1, y1, -, rfl⟩ := hS.cases hP
  · rw [groupOp_inf_left, groupOp_inf_right]
  obtain rfl | ⟨x2, y2, -, rfl⟩ := hT.cases hP
  · rw [groupOp_inf_left, groupOp_inf_right]
  exact groupOp_affinePoint_comm hP1 hP A x1 y1 x2 y2

end Affine

/-! ### A prime `P` and a non-singular curve: the group of Mathlib's curve (R197) -/

section Prime
variable {P A B : Nat}

/-- The curve point that a point of Mathlib's curve stands for. -/
def ofPoint : (curve P A B).Point → CurvePoint
  | .zero => .inf
  | .some x y _ => affinePoint x y

variable [Fact P.Prime]

theorem curve_Δ_ne_zero (hP : 3 ≤ P) (h : (4 * A ^ 3 + 27 * B ^ 2) % P ≠ 0) : (curve P A B).Δ ≠ 0 := by
  have hP2 : P.Coprime 2 := (Nat.coprime_primes Fact.out Nat.prime_two).2 (by omega)
  have hΔ : (curve P A B).Δ = -(2 ^ 4 * (4 * A ^ 3 + 27 * B ^ 2) : Nat) := by
    simp only [curve, WeierstrassCurve.Δ, WeierstrassCurve.b₂, WeierstrassCurve.b₄, WeierstrassCurve.b₆,
      WeierstrassCurve.b₈]
    push_cast
    ring
  rw [hΔ, neg_ne_zero, Ne, ZMod.natCast_eq_zero_iff, (hP2.pow_right 4).dvd_mul_left]
  exact fun hd => h (Nat.mod_eq_zero_of_dvd hd)

/-- On a non-singular curve every curve point stands for a point of Mathlib's curve. -/
theorem exists_ofPoint (hP : P < 2 ^ 544) (hΔ : (curve P A B).Δ ≠ 0) {S : CurvePoint} (hS : IsCurvePoint P A B S) :
    ∃ p : (curve P A B).Point, S = ofPoint p := by
  obtain rfl | ⟨x, y, h, rfl⟩ := hS.cases hP
  · exact ⟨.zero, rfl⟩
  · exact ⟨.some x y ((WeierstrassCurve.Affine.equation_iff_nonsingular_of_Δ_ne_zero hΔ).1 h), rfl⟩

/-- Two points of the curve with the same x are equal or inverse. -/
theorem eq_of_X_eq {x1 y1 x2 y2 : ZMod P} (h1 : (curve P A B).Equation x1 y1) (h2 : (curve P A B).Equation x2 y2)
    (hneg : ¬(x1 = x2 ∧ y1 = -y2)) (hx : x1 = x2) : y1 = y2 :=
  (WeierstrassCurve.Affine.Y_eq_of_X_eq h1 h2 hx).resolve_right fun hy => hneg ⟨hx, hy.trans (curve_negY A B x2 y2)⟩

/-- Past case 3 the denominator is not 0, so the slope exists. -/
theorem isUnit_slopeDen {x1 y1 x2 y2 : ZMod P} (h1 : (curve P A B).Equation x1 y1) (h2 : (curve P A B).Equation x2 y2)
    (hneg : ¬(x1 = x2 ∧ y1 = -y2)) : IsUnit (slopeDen x1 y1 x2 y2) := by
  rw [isUnit_iff_ne_zero]
  by_cases hx : x1 = x2
  · obtain rfl := hx
    obtain rfl := eq_of_X_eq h1 h2 hneg rfl
    rw [slopeDen_self]
    exact fun h0 => hneg ⟨rfl, eq_neg_of_add_eq_zero_left h0⟩
  · rw [slopeDen_of_ne fun h => hx h.1]
    exact sub_ne_zero.2 (Ne.symm hx)

/-- The slope of R186 is Mathlib's. -/
theorem curve_slope {x1 y1 x2 y2 : ZMod P} (h1 : (curve P A B).Equation x1 y1) (h2 : (curve P A B).Equation x2 y2)
    (hneg : ¬(x1 = x2 ∧ y1 = -y2)) : (curve P A B).slope x1 x2 y1 y2 = lineSlope A x1 y1 x2 y2 := by
  have hu := isUnit_slopeDen h1 h2 hneg
  have hden := hu.ne_zero
  rw [eq_lineSlope_iff hu]
  by_cases hx : x1 = x2
  · obtain rfl := hx
    obtain rfl := eq_of_X_eq h1 h2 hneg rfl
    rw [slopeDen_self] at hden ⊢
    rw [slopeNum_self, WeierstrassCurve.Affine.slope_of_Y_ne rfl (by rw [curve_negY]; exact fun h => hneg ⟨rfl, h⟩), curve_negY,
      sub_neg_eq_add, div_mul_cancel₀ _ hden]
    simp [curve, sq]
  · have hne : ¬(x1 = x2 ∧ y1 = y2) := fun h => hx h.1
    rw [slopeDen_of_ne hne] at hden ⊢
    rw [slopeNum_of_ne _ hne, WeierstrassCurve.Affine.slope_of_X_ne hx, ← neg_sub y2, ← neg_sub x2, neg_div_neg_eq,
      div_mul_cancel₀ _ hden]

theorem curve_addX (l x1 x2 : ZMod P) : (curve P A B).addX x1 x2 l = thirdX l x1 x2 := by
  simp [WeierstrassCurve.Affine.addX, curve, thirdX, sq]

theorem curve_addY (l x1 y1 x2 : ZMod P) : (curve P A B).addY x1 x2 y1 l = thirdY l x1 y1 x2 := by
  rw [WeierstrassCurve.Affine.addY, curve_negY, WeierstrassCurve.Affine.negAddY, curve_addX, thirdY]
  ring

/-- `group_op` is the addition of Mathlib's curve, and never fails. -/
theorem groupOp_ofPoint (hP : P < 2 ^ 544) (p q : (curve P A B).Point) :
    groupOp P A (ofPoint p) (ofPoint q) = .ok (ofPoint (p + q)) := by
  match p, q with
  | .zero, q => exact congrArg (Except.ok ∘ ofPoint) (zero_add q).symm
  | p, .zero => exact (groupOp_inf_right P A _).trans (congrArg (Except.ok ∘ ofPoint) (add_zero p).symm)
  | .some x1 y1 h1, .some x2 y2 h2 =>
    by_cases hneg : x1 = x2 ∧ y1 = -y2
    · rw [WeierstrassCurve.Affine.Point.add_of_Y_eq hneg.1 (hneg.2.trans (curve_negY A B x2 y2).symm)]
      exact groupOp_affinePoint_of_neg hP A hneg
    · rw [WeierstrassCurve.Affine.Point.add_some (by rwa [curve_negY])]
      simp only [ofPoint, curve_slope h1.1 h2.1 hneg, curve_addX, curve_addY]
      exact groupOp_affinePoint_of_isUnit (Fact.out : P.Prime).one_lt hP A hneg (isUnit_slopeDen h1.1 h2.1 hneg)

theorem groupOp_assoc (hP : P < 2 ^ 544) (hΔ : (curve P A B).Δ ≠ 0) {S T U : CurvePoint}
    (hS : IsCurvePoint P A B S) (hT : IsCurvePoint P A B T) (hU : IsCurvePoint P A B U) :
    (do let R ← groupOp P A S T; groupOp P A R U) = (do let R ← groupOp P A T U; groupOp P A S R) := by
  obtain ⟨p, rfl⟩ := exists_ofPoint hP hΔ hS
  obtain ⟨q, rfl⟩ := exists_ofPoint hP hΔ hT
  obtain ⟨r, rfl⟩ := exists_ofPoint hP hΔ hU
  simp only [groupOp_ofPoint hP, ok_bind, add_assoc]

end Prime

/-- Settles O35, by the cases of `group_op`: the chord and the tangent through points of the curve meet it a third time. -/
theorem groupOperationsStayOnCurve : Obligations.GroupOperationsStayOnCurve := by
  intro P A B S T hP3 hP hS hT
  have : NeZero P := .of_gt hP3
  exact ⟨fun R => groupOp_isCurvePoint (Nat.lt_of_succ_lt hP3) hP hS hT, groupInverse_isCurvePoint hP hS⟩

/-- Settles O36: identity, inverse and commutativity by the cases of `group_op`, associativity from the group of Mathlib's curve. -/
theorem groupLawsHold : Obligations.GroupLawsHold := by
  intro P A B S T U hP3 hP hS hT hU
  have : NeZero P := .of_gt hP3
  refine ⟨groupOp_inf_right P A S, groupOp_groupInverse hP hS, groupOp_comm (Nat.lt_of_succ_lt hP3) hP hS hT,
    fun hprime hns => ?_⟩
  have : Fact P.Prime := ⟨hprime⟩
  exact groupOp_assoc hP (curve_Δ_ne_zero hP3 hns) hS hT hU

end Sys2Proof.Machine

/-! `scalar_mul` on Mathlib's curve: the double-and-add loop computes the multiple of the point by the scalar
(46_elliptic_curve_scalar_multiplier.md R215, R218). -/

namespace Sys2Proof.Machine

/-- The loop of R215 reads every bit of the scalar. -/
theorem lt_two_pow_bitlen (k : Nat) : k < 2 ^ bitlen k := by
  unfold bitlen
  split
  next hk => simp [hk]
  next => exact Nat.lt_log2_self

theorem scalarMul_zero (P A : Nat) (S : CurvePoint) : scalarMul P A S 0 = .ok .inf := rfl

section Prime
variable {P A B : Nat} [Fact P.Prime]

/-- The conditional addition of R215 adds `p` as often as the bit says. -/
theorem addOnOne_ofPoint (hP : P < 2 ^ 544) (p r : (curve P A B).Point) (one : Bool) :
    addOnOne P A (ofPoint p) one (ofPoint r) = .ok (ofPoint (r + one.toNat • p)) := by
  cases one with
  | false => simp [addOnOne]
  | true => simp [addOnOne, groupOp_ofPoint hP]

/-- The loop over the low `i` bits of the scalar doubles the running point `i` times and adds `p` as often as those bits say. -/
theorem mulLoop_ofPoint (hP : P < 2 ^ 544) (p : (curve P A B).Point) (k i : Nat) (r : (curve P A B).Point) :
    mulLoop P A (ofPoint p) k i (ofPoint r) = .ok (ofPoint (2 ^ i • r + (k % 2 ^ i) • p)) := by
  induction i generalizing r with
  | zero => simp [mulLoop, Nat.mod_one]
  | succ i ih =>
    have hsum : 2 ^ i • (r + r + (k.testBit i).toNat • p) + (k % 2 ^ i) • p =
        2 ^ (i + 1) • r + (k % 2 ^ (i + 1)) • p := by
      rw [Nat.mod_pow_succ, ← Nat.toNat_testBit, pow_succ]
      module
    simp only [mulLoop, groupOp_ofPoint hP, addOnOne_ofPoint hP, ok_bind, ih, hsum]

/-- `scalar_mul` is the multiple by a natural number in the group of Mathlib's curve, and never fails. -/
theorem scalarMul_ofPoint (hP : P < 2 ^ 544) (p : (curve P A B).Point) (k : Nat) :
    scalarMul P A (ofPoint p) k = .ok (ofPoint (k • p)) := by
  have h := mulLoop_ofPoint hP p k (bitlen k) 0
  rwa [Nat.mod_eq_of_lt (lt_two_pow_bitlen k), nsmul_zero, zero_add] at h

end Prime

/-- Settles O37: `scalar_mul` is the multiple in the group of Mathlib's curve, where multiples add. -/
theorem scalarMultiplicationIsAdditive : Obligations.ScalarMultiplicationIsAdditive := by
  refine ⟨fun P A B S j k hP3 hP hS hprime hns => ?_, scalarMul_zero⟩
  have : Fact P.Prime := ⟨hprime⟩
  obtain ⟨p, rfl⟩ := exists_ofPoint hP (curve_Δ_ne_zero hP3 hns) hS
  simp only [scalarMul_ofPoint hP, groupOp_ofPoint hP, ok_bind, add_nsmul]

end Sys2Proof.Machine

/-! Errors common to many commands (60_exceptions.md): an illegal word, the stages of R244 that every command goes through (lifecycle,
sources, values), and the statements of R234, R235 and R236 that follow. -/

namespace Sys2Proof

/-! ### The words the decoder takes (30_encoding.md R97) -/

/-- One arm of a chain of tests on the opcode, in two tables at once. -/
theorem isSome_eq_toBool_ite {σ ε ω : Type} {p : Prop} [Decidable p] {a : σ} {o : ω} {m : Option σ} {m' : Except ε ω}
    (h : m.isSome = m'.toBool) : (if p then some a else m).isSome = (if p then .ok o else m').toBool := by
  split
  · rfl
  · exact h

/-- The table of classes and the opcode map have rows for the same opcodes. -/
theorem shapeOf_isSome_eq (op : BitVec 8) : (shapeOf op).isSome = (decodeOp op).toBool := by
  unfold shapeOf decodeOp
  iterate 22 refine isSome_eq_toBool_ite ?_
  rfl

/-- The decoder takes exactly the words that are legal by the class columns. -/
theorem decode_isOk_iff_wf (c : Word) : (∃ i, decode c = .ok i) ↔ (Fields.ofWord c).wf = true := by
  constructor
  · rintro ⟨i, hi⟩
    exact ((decode_row_iff_wf i c).1 ⟨i, hi, rfl⟩).2
  · intro hwf
    cases ho : decodeOp (Fields.ofWord c).op with
    | ok o =>
      have hop := (decodeOp_eq_ok_iff _ o).1 ho
      exact (bind_isOk_iff _ _).2 ⟨o, ho, (Fields.decodeOperands_isOk_iff_wf hop).2 hwf⟩
    | error m =>
      have hnone : shapeOf (Fields.ofWord c).op = none := by
        simpa [ho, Except.toBool] using shapeOf_isSome_eq (Fields.ofWord c).op
      simp [Fields.wf, hnone] at hwf

end Sys2Proof

namespace Sys2Proof.Machine

/-- Settles O5: a word that decodes is legal, so an illegal one takes the error branch of the engine's step. -/
theorem illegalWordFails : Obligations.IllegalWordFails := by
  refine ⟨fun s hwf => ?_, fun c => (decode_isOk_iff_wf c).2⟩
  rcases engineStep_cases s with ⟨i, hi, _⟩ | ⟨_, _, hstep⟩
  · have hlegal := (decode_isOk_iff_wf _).1 ⟨i, hi⟩
    simp [hwf] at hlegal
  · exact hstep

/-! ### Stages 4 and 5: the errors of the values (R244) -/

/-- The errors a command can raise once its lifecycle and its sources are right. -/
def valueErrors : List ErrorCode :=
  [.modulusMismatch, .badConfig, .invalidPoint, .unsupportedModulus, .noSquareRoot, .pointAtInfinity, .noInverse]

/-- The computation fails only with an error of the values, and what it answers otherwise is in `Q`. -/
def ValuesOnly {α : Type} (Q : α → Prop) (r : Except ErrorCode α) : Prop :=
  (∀ e, r = .error e → e ∈ valueErrors) ∧ ∀ a, r = .ok a → Q a

section ValuesOnly

variable {α β : Type} {Q : β → Prop}

theorem ValuesOnly.ok {b : β} (h : Q b) : ValuesOnly Q (.ok b) := ⟨nofun, fun _ hb => Except.ok.inj hb ▸ h⟩

theorem ValuesOnly.error {e : ErrorCode} (h : e ∈ valueErrors) : ValuesOnly Q (.error e) :=
  ⟨fun _ he => Except.error.inj he ▸ h, nofun⟩

theorem ValuesOnly.bind {m : Except ErrorCode α} {f : α → Except ErrorCode β} (hm : ValuesOnly (fun _ => True) m)
    (hf : ∀ a, ValuesOnly Q (f a)) : ValuesOnly Q (m >>= f) := by
  cases m with
  | ok a => exact hf a
  | error e => exact .error (hm.1 e rfl)

end ValuesOnly

theorem Block.residue_valuesOnly (b : Block) (v : Value) : ValuesOnly (fun _ => True) (b.residue v) := by
  refine ⟨fun e he => ?_, fun _ _ => trivial⟩
  obtain ⟨_, rfl⟩ := (b.residue_eq_error v e).1 he
  decide

theorem finv_valuesOnly (P a : Nat) : ValuesOnly (fun _ => True) (finv P a) := by
  dsimp only [finv]
  split
  · exact .ok trivial
  · exact .error (by decide)

theorem fsqrt_valuesOnly (P a : Nat) : ValuesOnly (fun _ => True) (fsqrt P a) := by
  dsimp only [fsqrt]
  split
  · exact .error (by decide)
  · split
    · exact .error (by decide)
    · exact .ok trivial

theorem chordTangent_valuesOnly (P A x1 y1 x2 y2 : Nat) : ValuesOnly (fun _ => True) (chordTangent P A x1 y1 x2 y2) :=
  .bind (finv_valuesOnly _ _) fun _ => .ok trivial

theorem groupOp_valuesOnly (P A : Nat) (S T : CurvePoint) : ValuesOnly (fun _ => True) (groupOp P A S T) := by
  rcases S with _ | ⟨x1, y1⟩
  · exact .ok trivial
  rcases T with _ | ⟨x2, y2⟩
  · exact .ok trivial
  dsimp only [groupOp]
  split
  · exact .ok trivial
  · exact .bind (chordTangent_valuesOnly _ _ _ _ _ _) fun _ => .ok trivial

theorem addOnOne_valuesOnly (P A : Nat) (S : CurvePoint) (one : Bool) (r : CurvePoint) :
    ValuesOnly (fun _ => True) (addOnOne P A S one r) := by
  cases one
  · exact .ok trivial
  · exact groupOp_valuesOnly P A r S

theorem mulLoop_valuesOnly (P A : Nat) (S : CurvePoint) (k i : Nat) (r : CurvePoint) :
    ValuesOnly (fun _ => True) (mulLoop P A S k i r) := by
  induction i generalizing r with
  | zero => exact .ok trivial
  | succ i ih => exact .bind (groupOp_valuesOnly P A r r) fun d => .bind (addOnOne_valuesOnly P A S _ d) ih

theorem scalarMul_valuesOnly (P A : Nat) (S : CurvePoint) (k : Nat) : ValuesOnly (fun _ => True) (scalarMul P A S k) :=
  mulLoop_valuesOnly P A S k _ .inf

theorem Block.checkConfig_valuesOnly (b : Block) : ValuesOnly (fun _ => True) b.checkConfig := by
  unfold Block.checkConfig
  split
  · exact .error (by decide)
  split
  · exact .error (by decide)
  split
  · exact .error (by decide)
  split
  · exact .error (by decide)
  · exact .ok trivial

/-! ### Stage 3: the sources (R236) -/

/-- Every one of these sources is valid. -/
def AllValid (b : Block) (ds : List DataReg) (ps : List PointIdx) : Prop :=
  (∀ d ∈ ds, b.xv[d] = true) ∧ ∀ p ∈ ps, b.q[p] ≠ .empty

theorem sourcesValid_iff (i : Instr) (b : Block) : SourcesValid i b ↔ AllValid b (dataSources i) (pointSources i) := Iff.rfl

theorem allValid_nil (b : Block) : AllValid b [] [] := ⟨nofun, nofun⟩

theorem allValid_cons_data {b : Block} {d : DataReg} {ds : List DataReg} {ps : List PointIdx} :
    AllValid b (d :: ds) ps ↔ b.xv[d] = true ∧ AllValid b ds ps :=
  (and_congr_left' List.forall_mem_cons).trans and_assoc

theorem allValid_cons_point {b : Block} {p : PointIdx} {ds : List DataReg} {ps : List PointIdx} :
    AllValid b ds (p :: ps) ↔ b.q[p] ≠ .empty ∧ AllValid b ds ps :=
  (and_congr_right' List.forall_mem_cons).trans and_left_comm

/-- The result tests these sources before it looks at a value: it is `ERR_UNINIT` when one is invalid; otherwise it fails only with
an error of the values, and leaves `ERR` when it succeeds. -/
structure TestsSources (b : Block) (ds : List DataReg) (ps : List PointIdx) (r : Except ErrorCode Block) : Prop where
  uninit : ¬AllValid b ds ps → r = .error .uninit
  valid : AllValid b ds ps → ValuesOnly (fun b' => b'.err = b.err) r

section TestsSources

variable {b : Block} {ds : List DataReg} {ps : List PointIdx}

theorem TestsSources.none {r : Except ErrorCode Block} (h : ValuesOnly (fun b' => b'.err = b.err) r) :
    TestsSources b [] [] r :=
  ⟨fun hu => absurd (allValid_nil b) hu, fun _ => h⟩

theorem TestsSources.source {d : DataReg} {f : Value → Except ErrorCode Block} (h : ∀ v, TestsSources b ds ps (f v)) :
    TestsSources b (d :: ds) ps (b.source d >>= f) := by
  cases hd : b.xv[d] with
  | false =>
    rw [(b.source_eq_error d _).2 ⟨hd, rfl⟩]
    exact ⟨fun _ => rfl, fun hv => absurd (allValid_cons_data.1 hv).1 (Bool.eq_false_iff.1 hd)⟩
  | true =>
    rw [(b.source_eq_ok d _).2 ⟨hd, rfl⟩]
    exact ⟨fun hu => (h _).uninit fun hv => hu (allValid_cons_data.2 ⟨hd, hv⟩),
      fun hv => (h _).valid (allValid_cons_data.1 hv).2⟩

theorem TestsSources.sourcePoint {p : PointIdx} {f : CurvePoint → Except ErrorCode Block}
    (h : ∀ v, TestsSources b ds ps (f v)) : TestsSources b ds (p :: ps) (b.sourcePoint p >>= f) := by
  cases hp : b.q[p] with
  | empty =>
    rw [(b.sourcePoint_eq_error p _).2 ⟨hp, rfl⟩]
    exact ⟨fun _ => rfl, fun hv => absurd hp (allValid_cons_point.1 hv).1⟩
  | holds v =>
    rw [(b.sourcePoint_eq_ok p v).2 hp]
    exact ⟨fun hu => (h v).uninit fun hv => hu (allValid_cons_point.2 ⟨by simp [hp], hv⟩),
      fun hv => (h v).valid (allValid_cons_point.1 hv).2⟩

end TestsSources

/-! ### Stage 2: the lifecycle (R235), and the order of the stages -/

/-- The lifecycle check of a command. -/
def Block.lifecycle (b : Block) (i : Instr) : Except ErrorCode Unit :=
  if 0x10 ≤ i.fields.op.toNat then b.needLocked
  else if i.fields.op.toNat = 0x08 ∨ i.fields.op.toNat = 0x09 then b.needUnlocked
  else .ok ()

theorem Block.lifecycle_eq_ok {b : Block} {i : Instr} (h : LifecycleOk i b) : b.lifecycle i = .ok () := by
  obtain ⟨hlocked, hunlocked⟩ := h
  unfold Block.lifecycle
  split
  · exact (b.needLocked_eq_ok ()).2 (hlocked ‹_›)
  split
  · exact (b.needUnlocked_eq_ok ()).2 (hunlocked ‹_›)
  · rfl

theorem Block.lifecycle_eq_notConfigured {b : Block} {i : Instr} (hop : 0x10 ≤ i.fields.op.toNat) (hl : b.locked = false) :
    b.lifecycle i = .error .notConfigured := by
  simp [Block.lifecycle, hop, Block.needLocked, hl]

theorem Block.lifecycle_eq_configLocked {b : Block} {i : Instr} (hop : i.fields.op.toNat = 0x08 ∨ i.fields.op.toNat = 0x09)
    (hl : b.locked = true) : b.lifecycle i = .error .configLocked := by
  have hlow : ¬0x10 ≤ i.fields.op.toNat := by omega
  simp [Block.lifecycle, hop, hlow, Block.needUnlocked, hl]

/-- R244 for every command: the lifecycle check, then the sources, then the values. -/
theorem exec_stages (i : Instr) (s : State) : ∃ r, exec i s = s.settle (s.block.lifecycle i >>= fun _ => r) ∧
    TestsSources s.block (dataSources i) (pointSources i) r := by
  cases i
  all_goals
    refine ⟨_, rfl, ?_⟩
  case nop | ld | li | pinf | pldg => exact .none (.ok (by simp))
  case st | mov | cfgset => exact .source fun _ => .none (.ok (by simp))
  case commit => exact .none (.bind s.block.checkConfig_valuesOnly fun _ => .ok (by simp))
  case madd | mmul =>
    exact .source fun v => .source fun w => .none (.bind (s.block.residue_valuesOnly v) fun _ =>
      .bind (s.block.residue_valuesOnly w) fun _ => .ok (by simp))
  case mneg => exact .source fun v => .none (.bind (s.block.residue_valuesOnly v) fun _ => .ok (by simp))
  case minv =>
    exact .source fun v => .none (.bind (s.block.residue_valuesOnly v) fun a =>
      .bind (finv_valuesOnly _ a) fun _ => .ok (by simp))
  case mpow =>
    exact .source fun v => .source fun _ => .none (.bind (s.block.residue_valuesOnly v) fun _ => .ok (by simp))
  case msqrt =>
    exact .source fun v => .none (.bind (s.block.residue_valuesOnly v) fun a =>
      .bind (fsqrt_valuesOnly _ a) fun _ => .ok (by simp))
  case pset =>
    refine .source fun v => .source fun w => .none (.bind (s.block.residue_valuesOnly v) fun _ =>
      .bind (s.block.residue_valuesOnly w) fun _ => ?_)
    split
    · exact .ok (by simp)
    · exact .error (by decide)
  case pmov | pneg => exact .sourcePoint fun _ => .none (.ok (by simp))
  case pgetx | pgety =>
    refine .sourcePoint fun p => .none ?_
    cases p with
    | inf => exact .error (by decide)
    | aff => exact .ok (by simp)
  case padd =>
    exact .sourcePoint fun p => .sourcePoint fun t => .none (.bind (groupOp_valuesOnly _ _ p t) fun _ => .ok (by simp))
  case pmul =>
    exact .sourcePoint fun p => .source fun k => .none (.bind (scalarMul_valuesOnly _ _ p _) fun _ => .ok (by simp))

/-- A command allowed in the lifecycle state is its stages from 3 on. -/
theorem exec_of_lifecycleOk {i : Instr} {s : State} (h : LifecycleOk i s.block) :
    ∃ r, exec i s = s.settle r ∧ TestsSources s.block (dataSources i) (pointSources i) r := by
  obtain ⟨r, hexec, hr⟩ := exec_stages i s
  rw [Block.lifecycle_eq_ok h] at hexec
  exact ⟨r, hexec, hr⟩

/-- A command that fails its lifecycle check fails with the code of that check, whatever its sources hold. -/
theorem exec_of_lifecycle_error {i : Instr} {s : State} {e : ErrorCode} (h : s.block.lifecycle i = .error e) :
    exec i s = .next (s.failedWith e.code) := by
  obtain ⟨r, hexec, _⟩ := exec_stages i s
  rw [h] at hexec
  exact hexec

/-- A command with an invalid source. -/
theorem exec_of_uninit {i : Instr} {s : State} (h : LifecycleOk i s.block) (hu : ¬SourcesValid i s.block) :
    exec i s = .next (s.failedWith 0x11) := by
  obtain ⟨r, hexec, hr⟩ := exec_of_lifecycleOk h
  rw [hexec, hr.uninit (mt (sourcesValid_iff i s.block).2 hu)]
  rfl

/-- A command with every source valid and no error latched leaves no error in `ERR` or an error of the values. -/
theorem exec_of_sourcesValid {i : Instr} {s : State} (h : LifecycleOk i s.block) (hv : SourcesValid i s.block)
    (he : s.block.err = 0) : ∃ t, exec i s = .next t ∧ (t.block.err = 0 ∨ ∃ e ∈ valueErrors, t.block.err = e.code) := by
  obtain ⟨r, hexec, hr⟩ := exec_of_lifecycleOk h
  obtain ⟨herror, hok⟩ := hr.valid ((sourcesValid_iff i s.block).1 hv)
  refine ⟨_, hexec, ?_⟩
  cases r with
  | ok b => exact .inl ((hok b rfl).trans he)
  | error e => exact .inr ⟨e, herror e rfl, rfl⟩

/-- The codes of stages 2 and 3 are none of the values'. -/
theorem code_ne_of_mem_valueErrors :
    ∀ {e : ErrorCode}, e ∈ valueErrors → e.code ≠ 0x11 ∧ e.code ≠ 0x12 ∧ e.code ≠ 0x13 := by
  decide

/-- Settles O11: with `LOCKED` wrong the lifecycle check fails; below `op = 0x08` there is none, and neither an invalid source nor a
value raises its codes. -/
theorem lifecycleErrors : Obligations.LifecycleErrors := by
  refine ⟨fun i s hop hl => ?_, fun sel r s hl => ⟨?_, ?_⟩, fun i s hop he => ?_⟩
  · exact exec_of_lifecycle_error (Block.lifecycle_eq_notConfigured hop hl)
  · exact exec_of_lifecycle_error (Block.lifecycle_eq_configLocked (.inl rfl) hl)
  · exact exec_of_lifecycle_error (Block.lifecycle_eq_configLocked (.inr rfl) hl)
  · have hlife : LifecycleOk i s.block := ⟨fun h => by omega, fun h => by omega⟩
    by_cases hv : SourcesValid i s.block
    · obtain ⟨t, ht, hclean | ⟨e, hmem, hcode⟩⟩ := exec_of_sourcesValid hlife hv he
      · exact ⟨t, ht, by simp [hclean]⟩
      · exact ⟨t, ht, hcode ▸ (code_ne_of_mem_valueErrors hmem).2⟩
    · exact ⟨_, exec_of_uninit hlife hv, by simp [State.failedWith]⟩

/-- Settles O12: the sources are tested first, and no value raises `ERR_UNINIT`. -/
theorem uninitializedSourceFails : Obligations.UninitializedSourceFails := by
  refine fun i s hlife => ⟨fun hu => exec_of_uninit hlife ?_, fun hv he => ?_⟩
  · rintro ⟨hdata, hpoint⟩
    rcases hu with ⟨r, hmem, hr⟩ | ⟨r, hmem, hr⟩
    · simpa [hr] using hdata r hmem
    · exact hpoint r hmem hr
  obtain ⟨t, ht, hclean | ⟨e, hmem, hcode⟩⟩ := exec_of_sourcesValid hlife hv he
  · exact ⟨t, ht, by simp [hclean]⟩
  · exact ⟨t, ht, hcode ▸ (code_ne_of_mem_valueErrors hmem).1⟩

end Sys2Proof.Machine

/-! The decoder and the encoder as inverses (30_encoding.md R97, R98): which field each operand comes from, and the statements that
follow. -/

namespace Sys2Proof

/-! ### The operands of a field (30_encoding.md R93) -/

theorem decodeData_eq_ok_iff (f : BitVec 4) (r : DataReg) : decodeData f = .ok r ↔ f = dataField r := by
  have lt : r.val < 2 ^ 4 := r.isLt.trans (by decide)
  rw [BitVec.toNat_eq, dataField, BitVec.toNat_ofNat, Nat.mod_eq_of_lt lt, decodeData]
  split
  · simp [Fin.ext_iff]
  · have := r.isLt
    simp only [reduceCtorEq, false_iff]
    omega

theorem decodePoint_eq_ok_iff (f : BitVec 4) (r : PointIdx) : decodePoint f = .ok r ↔ f = pointField r := by
  have lt : r.val < 2 ^ 4 := r.isLt.trans (by decide)
  rw [BitVec.toNat_eq, pointField, BitVec.toNat_ofNat, Nat.mod_eq_of_lt lt, decodePoint]
  split
  · simp [Fin.ext_iff]
  · have := r.isLt
    simp only [reduceCtorEq, false_iff]
    omega

theorem decodeSel_eq_ok_iff (f : BitVec 4) (sel : CfgSel) : decodeSel f = .ok sel ↔ f = selField sel := by
  cases sel <;> decide +revert

theorem decodeZero_eq_ok_iff {n : Nat} (f : BitVec n) (u : Unit) : decodeZero f = .ok u ↔ f = 0 := by
  unfold decodeZero
  split <;> simp [*]

/-! ### The command of a word (30_encoding.md R97) -/

/-- The fields of a command that decodes are the fields of its word. -/
theorem Fields.eq_of_decode {f : Fields} {i : Instr} (h : f.decode = .ok i) : f = i.fields := by
  obtain ⟨op, d, s1, s2, low⟩ := f
  obtain ⟨o, ho, h⟩ := (bind_eq_ok_iff _ _ _).1 h
  obtain rfl := (decodeOp_eq_ok_iff _ _).1 ho
  revert h
  cases o
  all_goals
    simp only [Fields.decodeOperands, bind_eq_ok_iff, decodeData_eq_ok_iff, decodePoint_eq_ok_iff, decodeSel_eq_ok_iff,
      decodeZero_eq_ok_iff, forall_exists_index, and_imp, pure, Except.pure, Except.ok.injEq]
    intros
    subst_vars
    rfl

/-- The fields of a command's word decode to the command. -/
theorem Instr.decode_fields (i : Instr) : i.fields.decode = .ok i := by
  obtain ⟨o, ho⟩ : ∃ o, decodeOp i.fields.op = .ok o := by cases i <;> exact ⟨_, rfl⟩
  refine (bind_eq_ok_iff _ _ _).2 ⟨o, ho, ?_⟩
  cases i
  all_goals
    cases ho
    simp [Fields.decodeOperands, Instr.fields, bind_eq_ok_iff, decodeData_eq_ok_iff, decodePoint_eq_ok_iff,
      decodeSel_eq_ok_iff, decodeZero_eq_ok_iff, pure, Except.pure]

/-- A word decodes to a command exactly when it is the command's word. -/
theorem decode_eq_ok_iff (c : Word) (i : Instr) : decode c = .ok i ↔ encode i = c := by
  rw [← Fields.ofWord_inj, encode, Fields.ofWord_toWord, decode]
  constructor
  · exact fun h => (Fields.eq_of_decode h).symm
  · exact fun h => h ▸ i.decode_fields

@[simp] theorem decode_encode (i : Instr) : decode (encode i) = .ok i := (decode_eq_ok_iff _ i).2 rfl

/-- Settles O2: the word of a command decodes to it, and a word that decodes is legal by the class columns. -/
theorem decodeOfEncodeIsIdentity : Obligations.DecodeOfEncodeIsIdentity :=
  fun i => ⟨decode_encode i, (decode_isOk_iff_wf _).1 ⟨i, decode_encode i⟩⟩

/-- Settles O3: the fields of the word are those of the command it decodes to. -/
theorem encodeOfDecodeIsIdentity : Obligations.EncodeOfDecodeIsIdentity :=
  fun c i h => (decode_eq_ok_iff c i).1 h

/-- Settles O1, by running the decoder on the words of the table. -/
theorem wordsOfTheTableDecode : Obligations.WordsOfTheTableDecode := by
  unfold Obligations.WordsOfTheTableDecode
  decide

end Sys2Proof

/-! What a command can do, written out as states, and what follows for every command and every step: what it leaves unchanged, what
it leaves in the error latch, and which steps change a register (10_state.md R21 to R25, 20_memory.md R70, R71,
60_exceptions.md R240, R242). -/

namespace Sys2Proof.Machine

/-! ### The outcomes of a command (20_memory.md R70) -/

/-- The command has stored these words in `DOUT`, and `BUSY <- 0`. -/
def State.wroteDout (s : State) (w : Vector Word Config.limbs) : State :=
  { s with block := { s.block with dout := w, busy := false } }

/-- The command has written a configuration field and its valid flag, and `BUSY <- 0`. -/
def State.wroteField (s : State) (sel : CfgSel) (v : Value) : State :=
  { s with block := { s.block with cfg := s.block.cfg.set sel.index v, cv := s.block.cv.set sel.index true, busy := false } }

/-- The command has locked the configuration, and `BUSY <- 0`. -/
def State.wroteLock (s : State) : State :=
  { s with block := { s.block with locked := true, busy := false } }

/-- `t` is the state after a command from `s` that has not failed: the one write that the command makes. -/
inductive Committed (i : Instr) (s : State) : State → Prop where
  | data (d : DataReg) (v : Value) (hd : destData i = some d) (hp : destPoint i = none) : Committed i s (s.wroteData d v)
  | point (d : PointIdx) (p : CurvePoint) (hp : destPoint i = some d) (hd : destData i = none)
      (hl : s.block.locked = true) : Committed i s (s.wrotePoint d p)
  | nothing (hi : i = .nop) : Committed i s s.wroteNothing
  | dout (r : DataReg) (w : Vector Word Config.limbs) (hi : i = .st r) : Committed i s (s.wroteDout w)
  | field (sel : CfgSel) (r : DataReg) (v : Value) (hi : i = .cfgset sel r) (hl : s.block.locked = false) :
      Committed i s (s.wroteField sel v)
  | lock (hi : i = .commit) (hl : s.block.locked = false) (hc : s.block.checkConfig = .ok ()) : Committed i s s.wroteLock

/-- A command either fails, and only sets the latch, or makes its one write. -/
theorem exec_outcome (i : Instr) (s : State) :
    (∃ e : ErrorCode, exec i s = .next (s.failedWith e.code)) ∨ ∃ t, exec i s = .next t ∧ Committed i s t := by
  obtain ⟨r, hr, hw⟩ := exec_writes i s
  cases r with
  | error e => exact .inl ⟨e, hr⟩
  | ok b =>
    refine .inr ⟨_, hr, ?_⟩
    rcases hw b rfl with ⟨d, v, hd, hp, rfl⟩ | ⟨d, p, hp, hd, hl, rfl⟩ | ⟨hi, rfl⟩ | ⟨r, w, hi, rfl⟩ |
      ⟨sel, r, v, hi, hl, rfl⟩ | ⟨hi, hl, hc, rfl⟩
    · exact .data d v hd hp
    · exact .point d p hp hd hl
    · exact .nothing hi
    · exact .dout r w hi
    · exact .field sel r v hi hl
    · exact .lock hi hl hc

theorem exec_next {i : Instr} {s t : State} (h : exec i s = .next t) :
    (∃ e : ErrorCode, t = s.failedWith e.code) ∨ Committed i s t := by
  rcases exec_outcome i s with ⟨e, he⟩ | ⟨t', ht, hc⟩
  · rw [he] at h
    cases h
    exact .inl ⟨e, rfl⟩
  · rw [ht] at h
    cases h
    exact .inr hc

/-! ### What no command changes -/

/-- What every command leaves unchanged when it does not fail. -/
structure KeepsLatchAndHost (s t : State) : Prop where
  pending : t.pending = s.pending
  observed : t.observed = s.observed
  din : t.block.din = s.block.din
  cmdreg : t.block.cmdreg = s.block.cmdreg
  err : t.block.err = s.block.err
  errcmd : t.block.errcmd = s.block.errcmd
  busy : t.block.busy = false

theorem Committed.keeps {i : Instr} {s t : State} (h : Committed i s t) : KeepsLatchAndHost s t := by
  cases h <;> exact ⟨rfl, rfl, rfl, rfl, rfl, rfl, rfl⟩

theorem ErrorCode.code_mem_errorCodes (e : ErrorCode) : e.code ∈ errorCodes := by
  cases e <;> decide

/-- STATUS bits 15:8 are `ERR`. -/
theorem Block.status_extractLsb'_err (b : Block) : b.status.extractLsb' 8 8 = b.err := by
  ext j hj
  rw [BitVec.getElem_extractLsb', ← BitVec.getLsbD_eq_getElem, b.status_getLsbD _ (by omega), if_neg (by omega),
    if_neg (by omega), if_neg (by omega), if_pos (by omega), Nat.add_sub_cancel_left]

/-- Settles O9: the two outcomes of a command. -/
theorem everyCommandCommitsOrOnlyLatches : Obligations.EveryCommandCommitsOrOnlyLatches := by
  intro i s
  rcases exec_outcome i s with ⟨e, he⟩ | ⟨t, ht, hc⟩
  · refine ⟨_, he, rfl, rfl, rfl, rfl, rfl, .inl ⟨e.code, e.code_mem_errorCodes, rfl, ?_, ?_⟩⟩
    · rw [Block.busRead_status, Block.status_getLsbD _ _ (by decide)]
      exact decide_eq_true e.code_ne_zero
    · exact Block.status_extractLsb'_err _
  · obtain ⟨pending, observed, din, cmdreg, err, errcmd, busy⟩ := hc.keeps
    exact ⟨t, ht, busy, pending, observed, din, cmdreg, .inr ⟨err, errcmd⟩⟩

/-! ### The buffers on the bus (20_memory.md R61) -/

/-- What stands at or above the first buffer word. -/
theorem windowReg_buffer (offset : Nat) (h : 0x100 ≤ offset) :
    (∃ i, windowReg offset = .din i) ∨ (0x180 ≤ offset ∧ offset < 0x180 + 4 * 17 ∧ ∃ i, windowReg offset = .dout i) ∨
      windowReg offset = .reserved := by
  have hw : windowReg offset =
      if hd : offset / 4 - 0x40 < Config.limbs then .din ⟨offset / 4 - 0x40, hd⟩
      else if offset / 4 < 0x60 then .reserved
      else if ho : offset / 4 - 0x60 < Config.limbs then .dout ⟨offset / 4 - 0x60, ho⟩
      else .reserved := by
    simp (disch := omega) only [windowReg, if_neg]
  rw [hw]
  split
  · exact .inl ⟨_, rfl⟩
  split
  · exact .inr (.inr rfl)
  split
  · next ho =>
    have ho : offset / 4 - 0x60 < 17 := ho
    exact .inr (.inl ⟨by omega, by omega, _, rfl⟩)
  · exact .inr (.inr rfl)

/-- A buffer word on the bus is a word of `DIN`, or of `DOUT`, or 0. -/
theorem Block.busRead_buffer_congr {b c : Block} {offset : Nat} (h : 0x100 ≤ offset) (hdin : b.din = c.din)
    (hdout : offset < 0x180 ∨ 0x180 + 4 * 17 ≤ offset ∨ b.dout = c.dout) : b.busRead offset = c.busRead offset := by
  rcases windowReg_buffer offset h with ⟨i, hw⟩ | ⟨hlo, hhi, i, hw⟩ | hw
  · simp only [Block.busRead, hw, hdin]
  · have hdout : b.dout = c.dout := by
      rcases hdout with hlt | hge | heq
      · omega
      · omega
      · exact heq
    simp only [Block.busRead, hw, hdout]
  · simp only [Block.busRead, hw]

/-! ### Frames -/

theorem getElem_set_fin_ne {α : Type} {n : Nat} (v : Vector α n) {i j : Fin n} (a : α) (h : j ≠ i) :
    (v.set i a)[j] = v[j] :=
  Vector.getElem_set_ne i.isLt j.isLt (fun he => h (Fin.ext he.symm))

theorem CfgSel.index_inj {sel sel' : CfgSel} : sel.index = sel'.index ↔ sel = sel' := by
  cases sel <;> cases sel' <;> decide

/-- Settles O38: a command with a data destination fails, or writes that register. -/
theorem dataRegisterCommandsFrame : Obligations.DataRegisterCommandsFrame := by
  intro i d s t hi h
  rcases exec_next h with ⟨e, rfl⟩ | hc
  · exact ⟨rfl, rfl, fun _ _ => ⟨rfl, rfl⟩, rfl, rfl, rfl, rfl, rfl, rfl, rfl,
      .inr ⟨e.code_mem_errorCodes, rfl, rfl, rfl⟩, fun _ hlo _ => Block.busRead_buffer_congr hlo rfl (.inr (.inr rfl))⟩
  cases hc with
  | data d' v hd _ =>
    obtain rfl : d' = d := Option.some.inj (hd.symm.trans hi)
    exact ⟨rfl, rfl, fun _ hr => ⟨getElem_set_fin_ne _ _ hr, getElem_set_fin_ne _ _ hr⟩, rfl, rfl, rfl, rfl,
      rfl, rfl, rfl, .inl ⟨rfl, rfl⟩, fun _ hlo _ => Block.busRead_buffer_congr hlo rfl (.inr (.inr rfl))⟩
  | point _ _ _ hd _ => simp [hd] at hi
  | nothing hn => simp [hn, destData] at hi
  | dout _ _ hn => simp [hn, destData] at hi
  | field _ _ _ hn _ => simp [hn, destData] at hi
  | lock hn _ _ => simp [hn, destData] at hi

/-- Settles O39: a command with a point destination fails, or writes that register. -/
theorem pointRegisterCommandsFrame : Obligations.PointRegisterCommandsFrame := by
  intro i d s t hi h
  rcases exec_next h with ⟨e, rfl⟩ | hc
  · exact ⟨rfl, rfl, fun _ _ => rfl, rfl, rfl, rfl, rfl, rfl, rfl, rfl, rfl,
      .inr ⟨e.code_mem_errorCodes, rfl, rfl⟩, fun _ hlo _ => Block.busRead_buffer_congr hlo rfl (.inr (.inr rfl))⟩
  cases hc with
  | point d' p hd _ _ =>
    obtain rfl : d' = d := Option.some.inj (hd.symm.trans hi)
    exact ⟨rfl, rfl, fun _ hr => getElem_set_fin_ne _ _ hr, rfl, rfl, rfl, rfl, rfl, rfl, rfl, rfl,
      .inl ⟨rfl, rfl⟩, fun _ hlo _ => Block.busRead_buffer_congr hlo rfl (.inr (.inr rfl))⟩
  | data _ _ _ hp => simp [hp] at hi
  | nothing hn => simp [hn, destPoint] at hi
  | dout _ _ hn => simp [hn, destPoint] at hi
  | field _ _ _ hn _ => simp [hn, destPoint] at hi
  | lock hn _ _ => simp [hn, destPoint] at hi

/-- Settles O40: a command without a register destination fails, or writes nothing, `DOUT`, one field, or `LOCKED`. -/
theorem bufferAndConfigCommandsFrame : Obligations.BufferAndConfigCommandsFrame := by
  intro i s t hd hp h
  have sameBuffers : ∀ b : Block, b.din = s.block.din → b.dout = s.block.dout → ∀ offset, 0x100 ≤ offset → offset < 0x200 →
      ((∀ r, i ≠ .st r) ∨ offset < 0x180 ∨ 0x180 + 4 * 17 ≤ offset) → b.busRead offset = s.block.busRead offset :=
    fun _ hdin hdout _ hlo _ _ => Block.busRead_buffer_congr hlo hdin (.inr (.inr hdout))
  rcases exec_next h with ⟨e, rfl⟩ | hc
  · exact ⟨rfl, rfl, rfl, rfl, rfl, rfl, rfl, fun _ => rfl, fun _ _ => ⟨rfl, rfl⟩, fun _ => rfl,
      .inr ⟨e.code_mem_errorCodes, rfl, rfl, rfl, rfl, rfl⟩, sameBuffers _ rfl rfl⟩
  cases hc with
  | data _ _ hn _ => simp [hd] at hn
  | point _ _ hn _ _ => simp [hp] at hn
  | nothing =>
    exact ⟨rfl, rfl, rfl, rfl, rfl, rfl, rfl, fun _ => rfl, fun _ _ => ⟨rfl, rfl⟩, fun _ => rfl, .inl ⟨rfl, rfl⟩,
      sameBuffers _ rfl rfl⟩
  | dout r w hi =>
    refine ⟨rfl, rfl, rfl, rfl, rfl, rfl, rfl, fun hst => absurd hi (hst r), fun _ _ => ⟨rfl, rfl⟩, fun _ => rfl,
      .inl ⟨rfl, rfl⟩, fun offset hlo _ hout => Block.busRead_buffer_congr hlo rfl ?_⟩
    rcases hout with hst | hlt | hge
    · exact absurd hi (hst r)
    · exact .inl hlt
    · exact .inr (.inl hge)
  | field sel r v hi _ =>
    refine ⟨rfl, rfl, rfl, rfl, rfl, rfl, rfl, fun _ => rfl, fun sel' hne => ?_, fun _ => rfl, .inl ⟨rfl, rfl⟩,
      sameBuffers _ rfl rfl⟩
    have hidx : sel'.index ≠ sel.index := fun he => hne r (CfgSel.index_inj.1 he ▸ hi)
    exact ⟨getElem_set_fin_ne _ _ hidx, getElem_set_fin_ne _ _ hidx⟩
  | lock hi _ _ =>
    exact ⟨rfl, rfl, rfl, rfl, rfl, rfl, rfl, fun _ => rfl, fun _ _ => ⟨rfl, rfl⟩, fun hne => absurd hi hne, .inl ⟨rfl, rfl⟩,
      sameBuffers _ rfl rfl⟩

end Sys2Proof.Machine

/-! The invariant of the block: it holds at reset, and every step keeps it (10_state.md R24, R26, R32, 60_exceptions.md R240, R242);
what the point operations do to points of the curve (45_elliptic_curve_point_adder.md R196). -/

namespace Sys2Proof.Machine

theorem Block.P_lt (b : Block) : b.P < 2 ^ 544 := by
  simpa only [Block.P, Config.width] using (b.field .p).isLt

/-! ### Scalar multiplication stays on the curve -/

section ScalarMul
variable {P A B : Nat} [NeZero P] {S : CurvePoint}

theorem addOnOne_isCurvePoint (hP1 : 1 < P) (hP : P < 2 ^ 544) (hS : IsCurvePoint P A B S) {one : Bool} {r R : CurvePoint}
    (hr : IsCurvePoint P A B r) (h : addOnOne P A S one r = .ok R) : IsCurvePoint P A B R := by
  cases one with
  | false => cases h; exact hr
  | true => exact groupOp_isCurvePoint hP1 hP hr hS h

theorem mulLoop_isCurvePoint (hP1 : 1 < P) (hP : P < 2 ^ 544) (hS : IsCurvePoint P A B S) {k i : Nat} {r R : CurvePoint}
    (hr : IsCurvePoint P A B r) (h : mulLoop P A S k i r = .ok R) : IsCurvePoint P A B R := by
  induction i generalizing r with
  | zero => cases h; exact hr
  | succ i ih =>
    obtain ⟨doubled, hd, h⟩ := bind_ok _ _ _ h
    obtain ⟨next, hn, h⟩ := bind_ok _ _ _ h
    exact ih (addOnOne_isCurvePoint hP1 hP hS (groupOp_isCurvePoint hP1 hP hr hr hd) hn) h

theorem scalarMul_isCurvePoint (hP1 : 1 < P) (hP : P < 2 ^ 544) (hS : IsCurvePoint P A B S) {k : Nat} {R : CurvePoint}
    (h : scalarMul P A S k = .ok R) : IsCurvePoint P A B R :=
  mulLoop_isCurvePoint hP1 hP hS (r := .inf) trivial h

end ScalarMul

/-! ### What a command writes to a point register -/

/-- A point register named as a source holds a point of the curve. -/
theorem Block.Inv.sourcePoint {b : Block} (h : b.Inv) {q : PointIdx} {p : CurvePoint} (hp : b.sourcePoint q = .ok p) :
    IsCurvePoint b.P b.A b.B p :=
  (h.points q p ((b.sourcePoint_eq_ok q p).1 hp)).2

theorem Block.ConfigChecked.three_le_P {b : Block} (h : b.ConfigChecked) (hl : b.locked = true) : 3 ≤ b.P := by
  obtain ⟨_, _, hP, _⟩ := h hl
  exact hP

theorem Block.ConfigChecked.base_isCurvePoint {b : Block} (h : b.ConfigChecked) (hl : b.locked = true) :
    IsCurvePoint b.P b.A b.B (.aff (b.field .gx) (b.field .gy)) := by
  obtain ⟨_, _, _, _, _, hX, hY, hon⟩ := h hl
  exact ⟨hX, hY, hon⟩

/-- The result, if it succeeds, is the block with a point of the curve written to `d`. -/
def WritesCurvePoint (b : Block) (d : PointIdx) (r : Except ErrorCode Block) : Prop :=
  ∀ b', r = .ok b' → ∃ p, IsCurvePoint b.P b.A b.B p ∧ b' = b.writePoint d p

section WritesCurvePoint

variable {b : Block} {d : PointIdx}

theorem WritesCurvePoint.ok {p : CurvePoint} (h : IsCurvePoint b.P b.A b.B p) :
    WritesCurvePoint b d (.ok (b.writePoint d p)) :=
  fun _ hb => ⟨p, h, (Except.ok.inj hb).symm⟩

theorem WritesCurvePoint.error {e : ErrorCode} : WritesCurvePoint b d (.error e) := nofun

theorem WritesCurvePoint.bind {α : Type} {m : Except ErrorCode α} {f : α → Except ErrorCode Block}
    (h : ∀ a, m = .ok a → WritesCurvePoint b d (f a)) : WritesCurvePoint b d (m >>= f) := by
  cases m with
  | ok a => exact h a rfl
  | error e => exact .error

end WritesCurvePoint

/-- A command that writes a point register writes a point of the curve. -/
theorem exec_writesCurvePoint {i : Instr} {d : PointIdx} {s : State} (hinv : s.Inv) (hd : destPoint i = some d) :
    ∃ r, exec i s = s.settle (s.block.needLocked >>= fun _ => r) ∧
      (s.block.locked = true → WritesCurvePoint s.block d r) := by
  have hP := s.block.P_lt
  cases i <;> cases hd
  all_goals
    refine ⟨_, rfl, fun hl => ?_⟩
    have hP3 := hinv.config.three_le_P hl
    have hP1 : 1 < s.block.P := by omega
    have : NeZero s.block.P := .of_gt hP3
  case pset =>
    refine .bind fun px hx => .bind fun py hy => .bind fun nx hnx => .bind fun ny hny => ?_
    obtain ⟨hltx, rfl⟩ := (s.block.residue_eq_ok _ _).1 hnx
    obtain ⟨hlty, rfl⟩ := (s.block.residue_eq_ok _ _).1 hny
    split
    · next hon => exact .ok ⟨hltx, hlty, hon⟩
    · exact .error
  case pinf => exact .ok trivial
  case pldg => exact .ok (hinv.config.base_isCurvePoint hl)
  case pmov => exact .bind fun p hp => .ok (hinv.sourcePoint hp)
  case padd =>
    exact .bind fun p hp => .bind fun q hq => .bind fun t ht =>
      .ok (groupOp_isCurvePoint hP1 hP (hinv.sourcePoint hp) (hinv.sourcePoint hq) ht)
  case pneg => exact .bind fun p hp => .ok (groupInverse_isCurvePoint hP (hinv.sourcePoint hp))
  case pmul =>
    exact .bind fun p hp => .bind fun k _ => .bind fun t ht =>
      .ok (scalarMul_isCurvePoint hP1 hP (hinv.sourcePoint hp) ht)

/-! ### The invariant over the writes of a block -/

section Writes

variable {s : State} {b : Block}

theorem Block.LatchConsistent.idle (h : b.LatchConsistent) : ({ b with busy := false } : Block).LatchConsistent := by
  obtain ⟨_, hclear, hset⟩ := h
  exact ⟨nofun, hclear, hset⟩

/-- While unlocked no register holds a point. -/
theorem Block.PointsOnCurve.no_point (h : b.PointsOnCurve) (hl : b.locked = false) (i : PointIdx) (p : CurvePoint) :
    b.q[i] ≠ .holds p := by
  intro hp
  obtain ⟨hl', _⟩ := h i p hp
  simp [hl] at hl'

theorem Block.Inv.raise (h : b.Inv) (e : ErrorCode) : (b.raise e).Inv where
  points := h.points
  config := h.config
  legalErr := .inr e.code_mem_errorCodes
  latch := ⟨nofun, fun he => absurd he e.code_ne_zero, fun _ => rfl⟩

theorem Block.Inv.issue (h : b.Inv) (c : Word) (herr : b.err = 0) : (b.issue c).Inv where
  points := h.points
  config := h.config
  legalErr := h.legalErr
  latch := by
    obtain ⟨_, hclear, _⟩ := h.latch
    exact ⟨fun _ => herr, hclear, fun he => absurd herr he⟩

theorem Block.Inv.clearError (h : b.Inv) : b.clearError.Inv where
  points := h.points
  config := h.config
  legalErr := .inl rfl
  latch := ⟨fun _ => rfl, fun _ => rfl, fun he => absurd rfl he⟩

theorem Block.Inv.writeDin (h : b.Inv) (i : Fin Config.limbs) (w : Word) : (b.writeDin i w).Inv :=
  ⟨h.points, h.config, h.legalErr, h.latch⟩

theorem State.Inv.wroteData (h : s.Inv) (d : DataReg) (v : Value) : (s.wroteData d v).Inv :=
  ⟨h.points, h.config, h.legalErr, h.latch.idle⟩

theorem State.Inv.wroteNothing (h : s.Inv) : s.wroteNothing.Inv := ⟨h.points, h.config, h.legalErr, h.latch.idle⟩

theorem State.Inv.wroteDout (h : s.Inv) (w : Vector Word Config.limbs) : (s.wroteDout w).Inv :=
  ⟨h.points, h.config, h.legalErr, h.latch.idle⟩

/-- CFGSET runs while unlocked, where the invariant asks nothing of the configuration. -/
theorem State.Inv.wroteField (h : s.Inv) (hl : s.block.locked = false) (sel : CfgSel) (v : Value) :
    (s.wroteField sel v).Inv where
  points := fun i p hp => absurd hp (h.points.no_point hl i p)
  config := fun hl' => absurd (hl.symm.trans hl') (by decide)
  legalErr := h.legalErr
  latch := h.latch.idle

/-- COMMIT locks a configuration that it has checked, and no register holds a point then. -/
theorem State.Inv.wroteLock (h : s.Inv) (hl : s.block.locked = false) (hc : s.block.checkConfig = .ok ()) :
    s.wroteLock.Inv where
  points := fun i p hp => absurd hp (h.points.no_point hl i p)
  config := s.block.checkConfig_eq_ok.1 hc
  legalErr := h.legalErr
  latch := h.latch.idle

theorem State.Inv.wrotePoint (h : s.Inv) (hl : s.block.locked = true) (d : PointIdx) {p : CurvePoint}
    (hp : IsCurvePoint s.block.P s.block.A s.block.B p) : (s.wrotePoint d p).Inv where
  points := fun i p' hi => by
    by_cases hid : i = d
    · subst hid
      obtain rfl : p = p' := by simpa [State.wrotePoint] using hi
      exact ⟨hl, hp⟩
    · exact h.points i p' ((getElem_set_fin_ne _ _ hid).symm.trans hi)
  config := h.config
  legalErr := h.legalErr
  latch := h.latch.idle

end Writes

/-- A command that writes a point register fails, or writes a point of the curve while `LOCKED = 1`. -/
theorem exec_point {i : Instr} {d : PointIdx} {s t : State} (hinv : s.Inv) (hd : destPoint i = some d)
    (h : exec i s = .next t) : (∃ e : ErrorCode, t = s.failedWith e.code) ∨
      ∃ p, s.block.locked = true ∧ IsCurvePoint s.block.P s.block.A s.block.B p ∧ t = s.wrotePoint d p := by
  obtain ⟨r, hr, hpoint⟩ := exec_writesCurvePoint hinv hd
  rw [hr] at h
  cases hl : s.block.locked with
  | false =>
    rw [Block.needLocked, hl] at h
    cases h
    exact .inl ⟨.notConfigured, rfl⟩
  | true =>
    rw [(s.block.needLocked_eq_ok ()).2 hl, ok_bind] at h
    cases r with
    | error e => cases h; exact .inl ⟨e, rfl⟩
    | ok b =>
      obtain ⟨p, hp, rfl⟩ := hpoint hl b rfl
      cases h
      exact .inr ⟨p, rfl, hp, rfl⟩

/-- Every command keeps the invariant. -/
theorem exec_inv {i : Instr} {s t : State} (h : s.Inv) (hexec : exec i s = .next t) : t.Inv := by
  cases hd : destPoint i with
  | some d =>
    rcases exec_point h hd hexec with ⟨e, rfl⟩ | ⟨p, hl, hp, rfl⟩
    · exact Block.Inv.raise h e
    · exact h.wrotePoint hl d hp
  | none =>
    rcases exec_next hexec with ⟨e, rfl⟩ | hc
    · exact Block.Inv.raise h e
    cases hc with
    | data d v => exact h.wroteData d v
    | point _ _ hp => simp [hd] at hp
    | nothing => exact h.wroteNothing
    | dout _ w => exact h.wroteDout w
    | field sel r v _ hl => exact h.wroteField hl sel v
    | lock _ hl hc => exact h.wroteLock hl hc

/-! ### Every step -/

theorem Block.reset_inv : Block.reset.Inv where
  points := fun i p hp => by simp [Block.reset] at hp
  config := nofun
  legalErr := .inl rfl
  latch := ⟨nofun, fun _ => rfl, fun he => absurd rfl he⟩

/-- Settles O41: after reset no register holds a point, nothing is locked and no error is latched. -/
theorem resetMeetsTheInvariant : Obligations.ResetMeetsTheInvariant := Block.reset_inv

/-- Settles O42: of all that a step can do to the block, only a command writes what the invariant speaks of and can break. -/
theorem stepKeepsTheInvariant : Obligations.StepKeepsTheInvariant := by
  intro s t hinv h
  show t.block.Inv
  rcases step_cases s t h with ht | ⟨_, ht⟩ | ⟨i, _, u, hu, he⟩ | ⟨_, _, ht⟩ | ⟨c, _, _, herr, ht⟩ | ⟨v, _, _, ht⟩ |
    ⟨i, v, _, _, ht⟩
  · exact ht ▸ hinv
  · exact ht ▸ Block.reset_inv
  · have huinv : u.Inv := by
      rw [State.Inv, hu]
      exact hinv
    exact exec_inv huinv he
  · exact ht ▸ Block.Inv.raise hinv .illegalCmd
  · exact ht ▸ Block.Inv.issue hinv c herr
  · exact ht ▸ Block.Inv.clearError hinv
  · exact ht ▸ Block.Inv.writeDin hinv i v

end Sys2Proof.Machine

/-! The values of invalid data registers and configuration fields are not observable (10_state.md R21, R25): every operation, every
command and every step makes of two blocks that differ only in such values two blocks that again differ only so. -/

namespace Sys2Proof.Machine

/-! ### Results and outcomes that agree -/

/-- Both results fail with the same error, or both are blocks that agree on all that can be observed. -/
inductive SameResult : Except ErrorCode Block → Except ErrorCode Block → Prop where
  | ok {b c : Block} (h : b.SameObservable c) : SameResult (.ok b) (.ok c)
  | error (e : ErrorCode) : SameResult (.error e) (.error e)

/-- Both outcomes are next states that agree on all that can be observed, or both are the same refusal. -/
inductive SameOutcome : Outcome → Outcome → Prop where
  | next {s t : State} (h : s.SameObservable t) : SameOutcome (.next s) (.next t)
  | refused (r : Refusal) : SameOutcome (.refused r) (.refused r)

/-- The same check or operand before two results that agree. -/
theorem SameResult.bind {α : Type} {m m' : Except ErrorCode α} {f g : α → Except ErrorCode Block} (hm : m = m')
    (h : ∀ a, m' = .ok a → SameResult (f a) (g a)) : SameResult (m >>= f) (m' >>= g) := by
  subst hm
  cases m with
  | ok a => exact h a rfl
  | error e => exact .error e

theorem getElem_set_congr {α : Type} {n : Nat} {v w : Vector α n} {i j : Fin n} (a : α) (h : j ≠ i → v[j] = w[j]) :
    (v.set i a)[j] = (w.set i a)[j] := by
  by_cases hj : j = i
  · subst hj
    simp
  · rw [getElem_set_fin_ne _ _ hj, getElem_set_fin_ne _ _ hj, h hj]

/-- Two blocks with the same configuration fields, and so the same integers. -/
structure SameFields (b c : Block) : Prop where
  P : b.P = c.P
  A : b.A = c.A
  B : b.B = c.B
  GX : b.GX = c.GX
  GY : b.GY = c.GY
  field : ∀ sel, b.field sel = c.field sel

theorem sameFields {b c : Block} (h : ∀ sel, b.field sel = c.field sel) : SameFields b c :=
  ⟨congrArg BitVec.toNat (h .p), congrArg BitVec.toNat (h .a), congrArg BitVec.toNat (h .b), congrArg BitVec.toNat (h .gx),
    congrArg BitVec.toNat (h .gy), h⟩

theorem SameFields.residue {b c : Block} (h : SameFields b c) (v : Value) : b.residue v = c.residue v := by
  rw [Block.residue, h.P, Block.residue]

namespace Block.SameObservable

variable {b c : Block} (h : b.SameObservable c)
include h

/-! ### The writes of a block -/

theorem raise (e : ErrorCode) : (b.raise e).SameObservable (c.raise e) :=
  { h with busy := rfl, err := rfl, errcmd := h.cmdreg }

theorem clearError : b.clearError.SameObservable c.clearError :=
  { h with err := rfl, errcmd := rfl }

theorem issue (w : Word) : (b.issue w).SameObservable (c.issue w) :=
  { h with cmdreg := rfl, busy := rfl }

theorem idle : Block.SameObservable { b with busy := false } { c with busy := false } :=
  { h with busy := rfl }

theorem lock : b.lock.SameObservable c.lock :=
  { h with locked := rfl }

theorem writeDin (i : Fin Config.limbs) (w : Word) : (b.writeDin i w).SameObservable (c.writeDin i w) :=
  { h with din := congrArg (·.set i w) h.din }

theorem writeDout (w : Vector Word Config.limbs) : (b.writeDout w).SameObservable (c.writeDout w) :=
  { h with dout := rfl }

theorem writePoint (d : PointIdx) (p : CurvePoint) : (b.writePoint d p).SameObservable (c.writePoint d p) :=
  { h with q := congrArg (·.set d (.holds p)) h.q }

theorem writeData (d : DataReg) (v : Value) : (b.writeData d v).SameObservable (c.writeData d v) :=
  { h with
    xv := congrArg (·.set d true) h.xv
    x := fun i hi => getElem_set_congr v fun hne => h.x i ((getElem_set_fin_ne _ _ hne).symm.trans hi) }

theorem writeField (sel : CfgSel) (v : Value) : (b.writeField sel v).SameObservable (c.writeField sel v) :=
  { h with
    cv := congrArg (·.set sel.index true) h.cv
    cfg := fun i hi => getElem_set_congr v fun hne => h.cfg i ((getElem_set_fin_ne _ _ hne).symm.trans hi) }

/-! ### The checks and the operands of a command -/

theorem needLocked : b.needLocked = c.needLocked := by
  rw [Block.needLocked, h.locked, Block.needLocked]

theorem needUnlocked : b.needUnlocked = c.needUnlocked := by
  rw [Block.needUnlocked, h.locked, Block.needUnlocked]

theorem source (r : DataReg) : b.source r = c.source r := by
  have hx := h.x r
  rw [h.xv] at hx
  unfold Block.source
  rw [h.xv]
  split
  · next hv => rw [hx hv]
  · rfl

theorem sourcePoint (r : PointIdx) : b.sourcePoint r = c.sourcePoint r := by
  rw [Block.sourcePoint, h.q, Block.sourcePoint]

/-- COMMIT reads a field only when every field is set. -/
theorem checkConfig : b.checkConfig = c.checkConfig := by
  have hset : b.allSet = c.allSet := by rw [Block.allSet, h.cv, Block.allSet]
  cases hc : c.allSet with
  | false => simp [Block.checkConfig, hset, hc]
  | true =>
    obtain ⟨P, A, B, GX, GY, _⟩ := sameFields fun sel => h.cfg sel (b.allSet_eq_true.1 (hset.trans hc) sel)
    rw [Block.checkConfig, hset, P, A, B, GX, GY, Block.checkConfig]

/-- While `LOCKED = 1` every configuration field is set. -/
theorem sameFields_of_locked (hinv : b.Inv) (hl : c.needLocked = .ok ()) : SameFields b c := by
  obtain ⟨hset, _⟩ := hinv.config (h.locked.trans ((c.needLocked_eq_ok ()).1 hl))
  exact sameFields fun sel => h.cfg sel (hset sel)

end Block.SameObservable

/-! ### Every command -/

theorem settle_sameOutcome {s t : State} {r r' : Except ErrorCode Block} (h : s.SameObservable t) (hr : SameResult r r') :
    SameOutcome (s.settle r) (t.settle r') := by
  cases hr with
  | ok hb => exact .next ⟨hb.idle, h.pending, h.observed⟩
  | error e => exact .next ⟨h.block.raise e, h.pending, h.observed⟩

/-- A command of the configured block: its lifecycle check first, and then both blocks have the same fields. -/
theorem SameResult.locked {b c : Block} (h : b.SameObservable c) (hinv : b.Inv) {r r' : Except ErrorCode Block}
    (hr : SameFields b c → SameResult r r') : SameResult (b.needLocked >>= fun _ => r) (c.needLocked >>= fun _ => r') :=
  .bind h.needLocked fun _ hl => hr (h.sameFields_of_locked hinv hl)

/-- The same command in two states that agree. -/
theorem exec_sameOutcome (i : Instr) {s t : State} (hinv : s.Inv) (h : s.SameObservable t) :
    SameOutcome (exec i s) (exec i t) := by
  have hb := h.block
  cases i
  all_goals
    refine settle_sameOutcome h ?_
  case nop => exact .ok hb
  case ld d =>
    rw [hb.din]
    exact .ok (hb.writeData d _)
  case li d _ => exact .ok (hb.writeData d _)
  case st r => exact .bind (hb.source r) fun v _ => .ok (hb.writeDout _)
  case mov d r => exact .bind (hb.source r) fun v _ => .ok (hb.writeData d v)
  case cfgset sel r => exact .bind hb.needUnlocked fun _ _ => .bind (hb.source r) fun v _ => .ok (hb.writeField sel v)
  case commit => exact .bind hb.needUnlocked fun _ _ => .bind hb.checkConfig fun _ _ => .ok hb.lock
  case madd d r1 r2 | mmul d r1 r2 =>
    refine .locked hb hinv fun hf => .bind (hb.source r1) fun v _ => .bind (hb.source r2) fun w _ =>
      .bind (hf.residue v) fun _ _ => .bind (hf.residue w) fun _ _ => ?_
    rw [hf.P]
    exact .ok (hb.writeData d _)
  case mneg d r =>
    refine .locked hb hinv fun hf => .bind (hb.source r) fun v _ => .bind (hf.residue v) fun _ _ => ?_
    rw [hf.P]
    exact .ok (hb.writeData d _)
  case minv d r | msqrt d r =>
    refine .locked hb hinv fun hf => .bind (hb.source r) fun v _ => .bind (hf.residue v) fun _ _ => ?_
    rw [hf.P]
    exact .bind rfl fun _ _ => .ok (hb.writeData d _)
  case mpow d r1 r2 =>
    refine .locked hb hinv fun hf => .bind (hb.source r1) fun v _ => .bind (hb.source r2) fun w _ =>
      .bind (hf.residue v) fun _ _ => ?_
    rw [hf.P]
    exact .ok (hb.writeData d _)
  case pset d r1 r2 =>
    refine .locked hb hinv fun hf => .bind (hb.source r1) fun v _ => .bind (hb.source r2) fun w _ =>
      .bind (hf.residue v) fun x _ => .bind (hf.residue w) fun y _ => ?_
    rw [hf.P, hf.A, hf.B]
    split
    · exact .ok (hb.writePoint d _)
    · exact .error _
  case pinf d => exact .locked hb hinv fun _ => .ok (hb.writePoint d _)
  case pldg d =>
    refine .locked hb hinv fun hf => ?_
    rw [hf.field, hf.field]
    exact .ok (hb.writePoint d _)
  case pmov d q => exact .locked hb hinv fun _ => .bind (hb.sourcePoint q) fun p _ => .ok (hb.writePoint d p)
  case pgetx d q | pgety d q =>
    refine .locked hb hinv fun _ => .bind (hb.sourcePoint q) fun p _ => ?_
    cases p with
    | inf => exact .error _
    | aff px py => exact .ok (hb.writeData d _)
  case padd d q1 q2 =>
    refine .locked hb hinv fun hf => .bind (hb.sourcePoint q1) fun p _ => .bind (hb.sourcePoint q2) fun q _ => ?_
    rw [hf.P, hf.A]
    exact .bind rfl fun t _ => .ok (hb.writePoint d t)
  case pneg d q =>
    refine .locked hb hinv fun hf => .bind (hb.sourcePoint q) fun p _ => ?_
    rw [hf.P]
    exact .ok (hb.writePoint d _)
  case pmul d q r =>
    refine .locked hb hinv fun hf => .bind (hb.sourcePoint q) fun p _ => .bind (hb.source r) fun k _ => ?_
    rw [hf.P, hf.A]
    exact .bind rfl fun t _ => .ok (hb.writePoint d t)

/-! ### Every step -/

theorem engineTurn_sameOutcome {s t : State} (hinv : s.Inv) (h : s.SameObservable t) :
    SameOutcome (engineTurn s) (engineTurn t) := by
  unfold engineTurn
  rw [h.block.busy]
  split
  · unfold engineStep
    rw [h.block.cmdreg]
    split
    · exact exec_sameOutcome _ hinv h
    · exact settle_sameOutcome h (.error _)
  · exact .next h

/-- The same write of the host, at any offset. -/
theorem Block.SameObservable.busWrite {b c : Block} (h : b.SameObservable c) (offset : Nat) (v : Word) :
    (b.busWrite offset v).SameObservable (c.busWrite offset v) := by
  unfold Block.busWrite
  cases windowReg offset with
  | cmd =>
    simp only [Block.writeCmd, h.busy, h.err]
    split
    · exact h.issue v
    · exact h
  | errclr =>
    simp only [Block.writeErrclr, h.busy]
    split
    · exact h
    · exact h.clearError
  | srst =>
    simp only [Block.writeSrst]
    split
    · exact Block.reset_isReset.sameObservable Block.reset_isReset
    · exact h
  | din i =>
    simp only [Block.writeDinBus, h.busy]
    split
    · exact h
    · exact h.writeDin i v
  | status | errcmd | rvalid | pstat | param | dout | reserved => exact h

theorem hostAccess_sameOutcome {s t : State} (h : s.SameObservable t) (x : Transaction) :
    SameOutcome (s.hostAccess x) (t.hostAccess x) := by
  cases x with
  | read offset size =>
    cases hp : accessPerformed offset size with
    | false =>
      simp only [State.hostAccess, Block.busAccess, hp]
      exact .refused _
    | true =>
      simp only [State.hostAccess, Block.busAccess, hp, h.block.busRead_eq, h.observed]
      exact .next ⟨h.block, h.pending, rfl⟩
  | write offset size v =>
    cases hp : accessPerformed offset size with
    | false =>
      simp only [State.hostAccess, Block.busAccess, hp]
      exact .refused _
    | true =>
      simp only [State.hostAccess, Block.busAccess, hp]
      exact .next ⟨h.block.busWrite offset v, h.pending, h.observed⟩

theorem step_sameOutcome {s t : State} (hinv : s.Inv) (h : s.SameObservable t) : SameOutcome (step s) (step t) := by
  unfold step advance
  rw [← h.pending]
  split
  · exact engineTurn_sameOutcome hinv h
  · next e rest _ =>
    have hrest : State.SameObservable { s with pending := rest } { t with pending := rest } := ⟨h.block, rfl, h.observed⟩
    cases e with
    | host x => exact hostAccess_sameOutcome hrest x
    | hardReset => exact .next ⟨Block.reset_isReset.sameObservable Block.reset_isReset, rfl, h.observed⟩
    | engineTurn => exact engineTurn_sameOutcome hinv hrest

/-- Settles O43: the two steps agree, as `step_sameOutcome` says. -/
theorem invalidValuesAreUnobservable : Obligations.InvalidValuesAreUnobservable := by
  intro s s' hinv h
  have same := step_sameOutcome hinv h
  refine ⟨fun t ht => ?_, fun r hr => ?_⟩
  · rw [ht] at same
    generalize step s' = o at same
    cases same with
    | next hst => exact ⟨_, rfl, hst⟩
  · rw [hr] at same
    generalize step s' = o at same
    cases same with
    | refused => rfl

end Sys2Proof.Machine

/-! Steps and runs: the engine's step of a command, the end of every run, the transactions that the window does not perform or that do
nothing, and what a step can change (20_memory.md R63, R64, R70 to R72, 10_state.md R21 to R25, 60_exceptions.md R242). -/

namespace Sys2Proof.Machine

/-! ### The engine's turn (20_memory.md R70, R72) -/

theorem step_idle (s : State) (h : s.pending = []) : step s = engineTurn s := by
  simp only [step, advance, h]

theorem step_engineTurn (s : State) (rest : List Event) (h : s.pending = .engineTurn :: rest) :
    step s = engineTurn { s with pending := rest } := by
  simp only [step, advance, h, happen]

theorem step_host (s : State) (rest : List Event) (x : Transaction) (h : s.pending = .host x :: rest) :
    step s = State.hostAccess { s with pending := rest } x := by
  simp only [step, advance, h, happen]

theorem engineTurn_of_not_busy (s : State) (h : s.block.busy = false) : engineTurn s = .next s := by
  simp [engineTurn, h]

theorem engineTurn_of_decode (s : State) (i : Instr) (hb : s.block.busy = true) (hd : decode s.block.cmdreg = .ok i) :
    engineTurn s = exec i s := by
  simp [engineTurn, hb, engineStep, hd]

theorem engineTurn_of_illegal (s : State) (m : Malformed) (hb : s.block.busy = true)
    (hd : decode s.block.cmdreg = .error m) : engineTurn s = .next (s.failedWith 0x10) := by
  simp only [engineTurn, hb, if_true, engineStep, hd]
  rfl

/-- Settles O6: the step is the engine's turn, which executes the command in flight, if there is one. -/
theorem stepRunsTheDecodedCommand : Obligations.StepRunsTheDecodedCommand := by
  refine fun s rest => ⟨fun i hb hd => ⟨fun hp => ?_, fun hp => ?_⟩, fun m hb hd => ⟨fun hp => ?_, fun hp => ?_⟩,
    fun hb => ⟨fun hp => ?_, fun hp => ?_⟩⟩
  · rw [step_idle s hp, engineTurn_of_decode s i hb hd]
  · exact (step_engineTurn s rest hp).trans (engineTurn_of_decode _ i hb hd)
  · rw [step_idle s hp, engineTurn_of_illegal s m hb hd]
  · exact (step_engineTurn s rest hp).trans (engineTurn_of_illegal _ m hb hd)
  · rw [step_idle s hp, engineTurn_of_not_busy s hb]
  · exact (step_engineTurn s rest hp).trans (engineTurn_of_not_busy _ hb)

/-- A 32-bit word is its own table word. -/
theorem tableWord_toNat (c : Word) : tableWord 32 c.toNat = c := by
  rw [tableWord, Nat.mod_eq_of_lt c.isLt, BitVec.ofNat_toNat, BitVec.setWidth_eq]

/-- Settles O7: the placed word decodes to the command, and the engine has the turn. -/
theorem placedWordRunsNext : Obligations.PlacedWordRunsNext := by
  intro s i
  rw [State.withFetchWord, tableWord_toNat]
  exact (step_engineTurn _ s.pending rfl).trans
    (engineTurn_of_decode { s with block := s.block.issue (encode i) } i rfl (decode_encode i))

/-! ### Every run ends (20_memory.md R71) -/

/-- The engine's turn completes the command in flight. -/
theorem engineTurn_completes (s : State) :
    ∃ t, engineTurn s = .next t ∧ t.block.busy = false ∧ t.pending = s.pending := by
  cases hb : s.block.busy with
  | false => exact ⟨s, engineTurn_of_not_busy s hb, hb, rfl⟩
  | true =>
    cases hd : decode s.block.cmdreg with
    | ok i =>
      obtain ⟨t, ht, hbusy, hpending, _⟩ := everyCommandCommitsOrOnlyLatches i s
      exact ⟨t, (engineTurn_of_decode s i hb hd).trans ht, hbusy, hpending⟩
    | error m => exact ⟨_, engineTurn_of_illegal s m hb hd, rfl, rfl⟩

/-- A transaction that the window performs is answered. -/
theorem hostAccess_performed (s : State) (x : Transaction) (h : (Event.host x).performed = true) :
    ∃ t, s.hostAccess x = .next t ∧ t.pending = s.pending := by
  cases x with
  | read offset size =>
    have hp : accessPerformed offset size = true := h
    simp [State.hostAccess, Block.busAccess, hp]
  | write offset size v =>
    have hp : accessPerformed offset size = true := h
    simp [State.hostAccess, Block.busAccess, hp]

/-- A step takes the next pending event, when that is one the window performs. -/
theorem step_takes_event (s : State) (e : Event) (rest : List Event) (hp : s.pending = e :: rest) (he : e.performed = true) :
    ∃ t, step s = .next t ∧ t.pending = rest := by
  cases e with
  | host x =>
    rw [step_host s rest x hp]
    exact hostAccess_performed _ x he
  | hardReset => exact ⟨_, step_hardReset s rest hp, rfl⟩
  | engineTurn =>
    rw [step_engineTurn s rest hp]
    obtain ⟨t, ht, _, hpending⟩ := engineTurn_completes { s with pending := rest }
    exact ⟨t, ht, hpending⟩

theorem run_succ_of_step {s t : State} (k : Nat) (h : step s = .next t) :
    Host.Core.run Sys2Proof.core (k + 1) s = Host.Core.run Sys2Proof.core k t := by
  have hcore : Sys2Proof.core.step s = .next t := h
  simp only [Host.Core.run, hcore]

/-- Settles O10, by induction on the pending events; the last step is the engine's. -/
theorem everyRunEnds : Obligations.EveryRunEnds := by
  intro s
  induction hp : s.pending generalizing s with
  | nil =>
    intro _
    obtain ⟨t, ht, hb, hpending⟩ := engineTurn_completes s
    exact ⟨t, run_succ_of_step 0 ((step_idle s hp).trans ht), hpending.trans hp, hb⟩
  | cons e rest ih =>
    intro hall
    rw [State.Performed, hp] at hall
    obtain ⟨he, hrest⟩ := List.forall_mem_cons.1 hall
    obtain ⟨t, ht, hpending⟩ := step_takes_event s e rest hp he
    rw [List.length_cons, run_succ_of_step _ ht]
    exact ih t hpending (by rwa [State.Performed, hpending])

/-! ### Transactions that do nothing, or are not performed (20_memory.md R63, R64) -/

/-- Only the offsets of `CMD`, `ERRCLR`, `SRST` and the `DIN` words have a write that acts. -/
theorem Block.busWrite_other (b : Block) (offset : Nat) (v : Word) (ha : offset % 4 = 0) (hcmd : offset ≠ 0x000)
    (herrclr : offset ≠ 0x00C) (hsrst : offset ≠ 0x01C) (hdin : offset < 0x100 ∨ 0x100 + 4 * 17 ≤ offset) :
    b.busWrite offset v = b := by
  obtain ⟨cmdAt, errclrAt, srstAt, dinAt⟩ := windowReg_offset offset ha
  rcases b.busWrite_cases offset v with h | ⟨hw, _⟩ | ⟨hw, _⟩ | ⟨hw, _⟩ | ⟨i, hw, _⟩
  · exact h
  · exact absurd (srstAt hw) hsrst
  · exact absurd (cmdAt hw) hcmd
  · exact absurd (errclrAt hw) herrclr
  · have hi : i.val < 17 := i.isLt
    have := dinAt i hw
    omega

/-- Settles O53: the write is `busWrite`, and at those offsets that changes nothing. -/
theorem otherBusWritesDoNothing : Obligations.OtherBusWritesDoNothing := by
  intro s rest offset v ha hin hcmd herrclr hsrst hdin h
  rw [step_write s rest offset v h (accessPerformed_of_aligned offset ha hin),
    Block.busWrite_other _ _ _ ha hcmd herrclr hsrst hdin]

theorem accessPerformed_eq_false (offset size : Nat) (h : size ≠ 4 ∨ offset % 4 ≠ 0 ∨ 0x200 ≤ offset) :
    accessPerformed offset size = false := by
  rw [Bool.eq_false_iff]
  simp only [accessPerformed, Config.windowBytes, Bool.and_eq_true, beq_iff_eq, decide_eq_true_eq, ne_eq]
  omega

/-- Settles O55: the window performs exactly the aligned accesses of 4 bytes inside it. -/
theorem unperformedAccessIsRefused : Obligations.UnperformedAccessIsRefused := by
  refine fun s rest offset size v => ⟨fun hbad => ?_, fun hsize ha hin hp => ?_⟩
  · have hnot := accessPerformed_eq_false offset size hbad
    have hread : ∀ b : Block, b.busAccess (.read offset size) = (b, .errorResponse) := by simp [Block.busAccess, hnot]
    have hwrite : ∀ b : Block, b.busAccess (.write offset size v) = (b, .errorResponse) := by simp [Block.busAccess, hnot]
    refine ⟨hread _, hwrite _, fun hp => ?_⟩
    rcases hp with hp | hp
    · rw [step_host s rest _ hp, State.hostAccess, hread]
    · rw [step_host s rest _ hp, State.hostAccess, hwrite]
  · have hperf := accessPerformed_of_aligned offset ha hin
    subst hsize
    rcases hp with hp | hp
    · exact ⟨_, step_read s rest offset hp hperf⟩
    · exact ⟨_, step_write s rest offset v hp hperf⟩

/-! ### Which step changes a register (10_state.md R21, R23, R25) -/

/-- From `b` to `c` valid flags and points stay, and a register or a field changes only if a command that `runs` names has it as its
destination. -/
structure ChangesOnlyDest (runs : Instr → Prop) (b c : Block) : Prop where
  xv : ∀ r : DataReg, b.xv[r] = true → c.xv[r] = true
  q : ∀ r : PointIdx, b.q[r] ≠ .empty → c.q[r] ≠ .empty
  cv : ∀ sel : CfgSel, b.cv[sel.index] = true → c.cv[sel.index] = true
  data : ∀ r : DataReg, c.x[r] ≠ b.x[r] ∨ c.xv[r] ≠ b.xv[r] → ∃ i, runs i ∧ destData i = some r
  point : ∀ r : PointIdx, c.q[r] ≠ b.q[r] → ∃ i, runs i ∧ destPoint i = some r
  field : ∀ sel : CfgSel, c.cfg[sel.index] ≠ b.cfg[sel.index] ∨ c.cv[sel.index] ≠ b.cv[sel.index] →
    b.locked = false ∧ ∃ r, runs (.cfgset sel r)

/-- A block with the same registers and fields. -/
theorem ChangesOnlyDest.of_same {runs : Instr → Prop} {b c : Block} (hx : c.x = b.x) (hxv : c.xv = b.xv) (hq : c.q = b.q)
    (hcfg : c.cfg = b.cfg) (hcv : c.cv = b.cv) : ChangesOnlyDest runs b c := by
  constructor <;> simp [hx, hxv, hq, hcfg, hcv]

theorem ChangesOnlyDest.mono {runs runs' : Instr → Prop} {b c : Block} (h : ChangesOnlyDest runs b c)
    (himp : ∀ i, runs i → runs' i) : ChangesOnlyDest runs' b c :=
  { h with
    data := fun r hr => (h.data r hr).imp fun i => And.imp_left (himp i)
    point := fun r hr => (h.point r hr).imp fun i => And.imp_left (himp i)
    field := fun sel hsel => (h.field sel hsel).imp_right (Exists.imp fun _ => himp _) }

/-- Setting a flag clears none. -/
theorem getElem_set_true {n : Nat} {v : Vector Bool n} (i : Fin n) {j : Fin n} (h : v[j] = true) : (v.set i true)[j] = true := by
  by_cases hj : j = i
  · subst hj
    simp
  · rwa [getElem_set_fin_ne _ _ hj]

/-- A command changes its own destination, and clears nothing. -/
theorem Committed.changesOnlyDest {i : Instr} {s t : State} (h : Committed i s t) :
    ChangesOnlyDest (· = i) s.block t.block := by
  have same : ChangesOnlyDest (· = i) s.block s.block := .of_same rfl rfl rfl rfl rfl
  cases h with
  | data d v hd _ =>
    refine { same with xv := fun r => getElem_set_true d, data := fun r hr => ?_ }
    by_cases hrd : r = d
    · exact ⟨i, rfl, hrd ▸ hd⟩
    · exact absurd hr (by simp [State.wroteData, getElem_set_fin_ne _ _ hrd])
  | point d p hd _ _ =>
    refine { same with q := fun r hr => ?_, point := fun r hr => ?_ }
    · by_cases hrd : r = d
      · simp [State.wrotePoint, hrd]
      · simpa [State.wrotePoint, getElem_set_fin_ne _ _ hrd] using hr
    · by_cases hrd : r = d
      · exact ⟨i, rfl, hrd ▸ hd⟩
      · exact absurd (getElem_set_fin_ne _ _ hrd) hr
  | nothing => exact .of_same rfl rfl rfl rfl rfl
  | dout => exact .of_same rfl rfl rfl rfl rfl
  | field sel r v hi hl =>
    refine { same with cv := fun sel' => getElem_set_true sel.index, field := fun sel' hsel => ⟨hl, ?_⟩ }
    by_cases he : sel' = sel
    · exact ⟨r, he ▸ hi.symm⟩
    · have hidx := mt CfgSel.index_inj.1 he
      exact absurd hsel (by simp [State.wroteField, getElem_set_fin_ne _ _ hidx])
  | lock => exact .of_same rfl rfl rfl rfl rfl

/-- Settles O45: the one step that changes a register or a field without a reset is a command's, and that changes its destination. -/
theorem onlyResetClearsValidFlags : Obligations.OnlyResetClearsValidFlags := by
  intro s t h
  have main : (s.ResetNext ∧ t.block.IsReset) ∨ ChangesOnlyDest s.Runs s.block t.block := by
    rcases step_cases s t h with ht | ⟨hreset, ht⟩ | ⟨i, hi, u, hu, he⟩ | ⟨_, _, ht⟩ | ⟨c, _, _, _, ht⟩ | ⟨v, _, _, ht⟩ |
      ⟨i, v, _, _, ht⟩
    · exact .inr (ht ▸ .of_same rfl rfl rfl rfl rfl)
    · exact .inl ⟨hreset, ht ▸ Block.reset_isReset⟩
    · rw [← hu]
      rcases exec_next he with ⟨e, rfl⟩ | hc
      · exact .inr (.of_same rfl rfl rfl rfl rfl)
      · exact .inr (hc.changesOnlyDest.mono fun j hj => hj ▸ hi)
    · exact .inr (ht ▸ .of_same rfl rfl rfl rfl rfl)
    · exact .inr (ht ▸ .of_same rfl rfl rfl rfl rfl)
    · exact .inr (ht ▸ .of_same rfl rfl rfl rfl rfl)
    · exact .inr (ht ▸ .of_same rfl rfl rfl rfl rfl)
  exact main.imp_right fun ⟨hxv, hq, hcv, hdata, hpoint, hfield⟩ => ⟨hxv, hq, hcv, hdata, hpoint, hfield⟩

/-! ### While an error is latched (60_exceptions.md R242) -/

/-- A read that is answered is observed. -/
theorem step_of_hostReads {s t : State} {offset : Nat} (hr : s.HostReads offset) (h : step s = .next t) :
    t.observed = s.observed ++ [s.block.busRead offset] := by
  obtain ⟨rest, hp⟩ := hr
  rw [step_host s rest _ hp] at h
  obtain ⟨_, ⟨o, ho, _, hobs⟩ | ⟨o, v, ho, _⟩⟩ := State.hostAccess_cases _ t _ h
  · cases ho
    exact hobs
  · cases ho

/-- What a write of the host that the window performs leaves in the block. -/
theorem step_block_of_hostWrites {s t : State} {offset : Nat} {v : Word} (hw : s.HostWrites offset v)
    (hp : accessPerformed offset 4 = true) (h : step s = .next t) : t.block = s.block.busWrite offset v := by
  obtain ⟨rest, hpending⟩ := hw
  rw [step_write s rest offset v hpending hp] at h
  cases h
  rfl

/-- Settles O47: by the invariant no command is in flight, so of all that a step can do only the host's writes and a reset are left. -/
theorem latchedErrorBlocksCommands : Obligations.LatchedErrorBlocksCommands := by
  intro s t hinv herr h
  obtain ⟨hidle, _⟩ := hinv.latch
  have hb : s.block.busy = false := Bool.eq_false_iff.2 fun hbusy => herr (hidle hbusy)
  have notNext : ¬s.EngineNext := fun ⟨hbusy, _⟩ => herr (hidle hbusy)
  refine ⟨fun hreset => ?_, fun v hw => ?_, fun i v hw => ?_, fun offset hr => step_of_hostReads hr h,
    fun noReset noErrclr noDin => ?_⟩
  · obtain ⟨rest, hs⟩ := step_of_resetNext s hreset
    rw [hs] at h
    cases h
    exact Block.reset_isReset
  · rw [step_block_of_hostWrites hw (by decide) h, Block.busWrite_errclr, Block.writeErrclr_idle _ hb]
    rfl
  · rw [step_block_of_hostWrites hw (accessPerformed_of_aligned _ (by omega) (by omega)) h, Block.busWrite_din,
      Block.writeDinBus_idle _ _ _ hb]
    rfl
  · rcases step_cases s t h with ht | ⟨hreset, _⟩ | ⟨i, ⟨hnext, _⟩, _⟩ | ⟨hnext, _⟩ | ⟨c, _, _, hclear, _⟩ | ⟨v, hw, _⟩ |
      ⟨i, v, hw, _⟩
    · exact ht
    · exact absurd hreset noReset
    · exact absurd hnext notNext
    · exact absurd hnext notNext
    · exact absurd hclear herr
    · exact absurd hw (noErrclr v)
    · exact absurd hw (noDin i v)

end Sys2Proof.Machine

/-! The order of a command's checks (60_exceptions.md R244), the modular operands (R231), and data movement and configuration: LD, ST,
MOV, CFGSET, COMMIT (40_config_and_data_movement.md R120 to R127). -/

namespace Sys2Proof.Machine

/-! ### Checks and operands that pass or fail -/

theorem Block.needLocked_of_locked {b : Block} (h : b.locked = true) : b.needLocked = .ok () :=
  (b.needLocked_eq_ok ()).2 h

theorem Block.needUnlocked_of_unlocked {b : Block} (h : b.locked = false) : b.needUnlocked = .ok () :=
  (b.needUnlocked_eq_ok ()).2 h

theorem Block.source_of_valid {b : Block} {r : DataReg} (h : b.xv[r] = true) : b.source r = .ok b.x[r] :=
  (b.source_eq_ok r _).2 ⟨h, rfl⟩

theorem Block.sourcePoint_of_holds {b : Block} {q : PointIdx} {p : CurvePoint} (h : b.q[q] = .holds p) :
    b.sourcePoint q = .ok p :=
  (b.sourcePoint_eq_ok q p).2 h

theorem Block.residue_of_lt {b : Block} {v : Value} (h : v.toNat < b.P) : b.residue v = .ok v.toNat :=
  (b.residue_eq_ok v _).2 ⟨h, rfl⟩

theorem Block.residue_of_le {b : Block} {v : Value} (h : b.P ≤ v.toNat) : b.residue v = .error .modulusMismatch :=
  (b.residue_eq_error v _).2 ⟨h, rfl⟩

theorem State.settle_writeData (s : State) (d : DataReg) (v : Value) :
    s.settle (.ok (s.block.writeData d v)) = .next (s.wroteData d v) := rfl

/-! ### Lifecycle and sources (R235, R236) -/

theorem lifecycleOk_of_locked {i : Instr} {b : Block} (hop : 0x10 ≤ i.fields.op.toNat) (hl : b.locked = true) :
    LifecycleOk i b :=
  ⟨fun _ => hl, fun h => by omega⟩

theorem exec_unlocked {i : Instr} {s : State} (hop : 0x10 ≤ i.fields.op.toNat) (hl : s.block.locked = false) :
    exec i s = .next (s.failedWith 0x12) :=
  exec_of_lifecycle_error (Block.lifecycle_eq_notConfigured hop hl)

/-- CFGSET and COMMIT while `LOCKED = 1`. -/
theorem exec_configLocked {i : Instr} {s : State} (hop : i.fields.op.toNat = 0x08 ∨ i.fields.op.toNat = 0x09)
    (hl : s.block.locked = true) : exec i s = .next (s.failedWith 0x13) :=
  exec_of_lifecycle_error (Block.lifecycle_eq_configLocked hop hl)

theorem exec_invalid_data {i : Instr} {s : State} (r : DataReg) (hlife : LifecycleOk i s.block) (hr : r ∈ dataSources i)
    (hv : s.block.xv[r] = false) : exec i s = .next (s.failedWith 0x11) :=
  (uninitializedSourceFails i s hlife).1 (.inl ⟨r, hr, hv⟩)

theorem exec_empty_point {i : Instr} {s : State} (q : PointIdx) (hlife : LifecycleOk i s.block) (hq : q ∈ pointSources i)
    (he : s.block.q[q] = .empty) : exec i s = .next (s.failedWith 0x11) :=
  (uninitializedSourceFails i s hlife).1 (.inr ⟨q, hq, he⟩)

/-! ### Stage 4: the modular operands (R231) -/

/-- The result is `ERR_MODULUS_MISMATCH` when one of these registers holds a value not below `cfg.P`. -/
def TestsOperands (b : Block) (ms : List DataReg) (r : Except ErrorCode Block) : Prop :=
  (∃ m ∈ ms, b.P ≤ b.x[m].toNat) → r = .error .modulusMismatch

theorem TestsOperands.none {b : Block} {r : Except ErrorCode Block} : TestsOperands b [] r := by
  rintro ⟨_, h, _⟩
  cases h

theorem TestsOperands.residue {b : Block} {m : DataReg} {ms : List DataReg} {f : Nat → Except ErrorCode Block}
    (h : ∀ n, TestsOperands b ms (f n)) : TestsOperands b (m :: ms) (b.residue b.x[m] >>= f) := by
  rintro ⟨k, hk, hle⟩
  by_cases hm : b.P ≤ b.x[m].toNat
  · rw [Block.residue_of_le hm, error_bind]
  · rw [Block.residue_of_lt (Nat.not_le.1 hm), ok_bind]
    rcases List.mem_cons.1 hk with rfl | hk
    · exact absurd hle hm
    · exact h _ ⟨k, hk, hle⟩

/-- A command whose lifecycle and sources are right tests its modular operands next. -/
theorem exec_operands {i : Instr} {s : State} (hlife : LifecycleOk i s.block) (hv : SourcesValid i s.block) :
    ∃ r, exec i s = s.settle r ∧ TestsOperands s.block (modularOperands i) r := by
  have locked : 0x10 ≤ i.fields.op.toNat → s.block.needLocked = .ok () := fun hop => Block.needLocked_of_locked (hlife.1 hop)
  have valid : ∀ r ∈ dataSources i, s.block.source r = .ok s.block.x[r] := fun r hr => Block.source_of_valid (hv.1 r hr)
  cases i
  case madd _ r1 r2 | mmul _ r1 r2 | pset _ r1 r2 =>
    refine ⟨_, rfl, ?_⟩
    simp only [locked (by simp [Instr.fields]), valid r1 (.head _), valid r2 (.tail _ (.head _)), ok_bind]
    exact .residue fun _ => .residue fun _ => .none
  case mpow _ r1 r2 =>
    refine ⟨_, rfl, ?_⟩
    simp only [locked (by simp [Instr.fields]), valid r1 (.head _), valid r2 (.tail _ (.head _)), ok_bind]
    exact .residue fun _ => .none
  case mneg _ r | minv _ r | msqrt _ r =>
    refine ⟨_, rfl, ?_⟩
    simp only [locked (by simp [Instr.fields]), valid r (.head _), ok_bind]
    exact .residue fun _ => .none
  all_goals exact ⟨_, rfl, .none⟩

theorem exec_modulusMismatch {i : Instr} {s : State} (m : DataReg) (hlife : LifecycleOk i s.block)
    (hv : SourcesValid i s.block) (hm : m ∈ modularOperands i) (hle : s.block.P ≤ s.block.x[m].toNat) :
    exec i s = .next (s.failedWith 0x01) := by
  obtain ⟨r, hexec, hr⟩ := exec_operands hlife hv
  rw [hexec, hr ⟨m, hm, hle⟩]
  rfl

/-! ### COMMIT (40_config_and_data_movement.md R127) -/

/-- The curve equation, in integers modulo `P` (45_elliptic_curve_point_adder.md R185). -/
theorem onCurve_iff (P A B x y : Nat) : onCurve P A B x y = true ↔ y ^ 2 % P = (x ^ 3 + A * x + B) % P := by
  simp [onCurve, fmul, fadd, pow_succ, Nat.add_mod, Nat.mul_mod]

section Commit

variable {s : State}

theorem exec_commit_unlocked (hl : s.block.locked = false) :
    exec .commit s = s.settle (s.block.checkConfig >>= fun _ => .ok s.block.lock) := by
  show s.settle (s.block.needUnlocked >>= fun _ => _) = _
  rw [Block.needUnlocked_of_unlocked hl, ok_bind]
  rfl

theorem exec_commit_error {e : ErrorCode} (hl : s.block.locked = false) (hc : s.block.checkConfig = .error e) :
    exec .commit s = .next (s.failedWith e.code) := by
  rw [exec_commit_unlocked hl, hc]
  rfl

end Commit

section CheckConfig

variable {b : Block}

theorem Block.checkConfig_of_not_set (h : ¬∀ sel : CfgSel, b.cv[sel.index] = true) : b.checkConfig = .error .badConfig := by
  rw [← Block.allSet_eq_true] at h
  simp [Block.checkConfig, h]

variable (hset : ∀ sel : CfgSel, b.cv[sel.index] = true)
include hset

theorem Block.checkConfig_of_bad_modulus (h : ¬(b.P % 2 = 1 ∧ 3 ≤ b.P)) : b.checkConfig = .error .badConfig := by
  rw [Block.checkConfig, if_neg (by simp [b.allSet_eq_true.2 hset]), if_pos (by omega)]

theorem Block.checkConfig_of_not_residue (hP : b.P % 2 = 1 ∧ 3 ≤ b.P)
    (h : b.P ≤ b.A ∨ b.P ≤ b.B ∨ b.P ≤ b.GX ∨ b.P ≤ b.GY) : b.checkConfig = .error .modulusMismatch := by
  rw [Block.checkConfig, if_neg (by simp [b.allSet_eq_true.2 hset]), if_neg (by omega), if_pos h]

theorem Block.checkConfig_of_residues (hP : b.P % 2 = 1 ∧ 3 ≤ b.P) (h : b.A < b.P ∧ b.B < b.P ∧ b.GX < b.P ∧ b.GY < b.P) :
    b.checkConfig = if b.GY ^ 2 % b.P = (b.GX ^ 3 + b.A * b.GX + b.B) % b.P then .ok () else .error .invalidPoint := by
  rw [Block.checkConfig, if_neg (by simp [b.allSet_eq_true.2 hset]), if_neg (by omega), if_neg (by omega)]
  simp only [← onCurve_iff]
  cases onCurve b.P b.A b.B b.GX b.GY <;> rfl

end CheckConfig

/-- Settles O13: stage 4 of a command, and the third check of COMMIT. -/
theorem modulusMismatchFails : Obligations.ModulusMismatchFails := by
  refine ⟨fun i s hlife hv ⟨m, hm, hle⟩ => exec_modulusMismatch m hlife hv hm hle, fun s hl hset hodd hP hle => ?_⟩
  exact exec_commit_error hl (Block.checkConfig_of_not_residue hset ⟨hodd, hP⟩ hle)

/-- Settles O19: the checks of COMMIT one by one. -/
theorem commitChecksAndLocks : Obligations.CommitChecksAndLocks := by
  intro s
  refine ⟨fun hl => ?_, fun hl hset => ?_, fun hl hset hP => ?_, fun hl hset hP hr => ?_, fun hl hset hP hr hon => ?_,
    fun hl hset hP hr hon => ?_⟩
  · exact exec_configLocked (.inr rfl) hl
  · exact exec_commit_error hl (Block.checkConfig_of_not_set hset)
  · exact exec_commit_error hl (Block.checkConfig_of_bad_modulus hset hP)
  · exact exec_commit_error hl (Block.checkConfig_of_not_residue hset hP (by omega))
  · exact exec_commit_error hl ((Block.checkConfig_of_residues hset hP hr).trans (if_neg hon))
  · exact exec_commit_ok s hl ((Block.checkConfig_of_residues hset hP hr).trans (if_pos hon))

/-! ### NOP, LI, MOV, CFGSET (R120, R123, R124, R126) -/

/-- A command with `op < 0x08` may run in both lifecycle states. -/
theorem lifecycleOk_of_lt {i : Instr} (b : Block) (hop : i.fields.op.toNat < 0x08) : LifecycleOk i b :=
  ⟨fun h => by omega, fun h => by omega⟩

theorem exec_li (d : DataReg) (imm12 : BitVec 12) (s : State) :
    exec (.li d imm12) s = .next (s.wroteData d (immediate imm12)) := rfl

/-- Settles O14: the immediate is the value of its integer. -/
theorem nopAndLiResults : Obligations.NopAndLiResults := by
  refine fun s d imm12 => ⟨rfl, ?_⟩
  rw [BitVec.ofNat_toNat]
  exact exec_li d imm12 s

/-- Settles O17: MOV has no lifecycle check, and its one source is tested before it is copied. -/
theorem movCopies : Obligations.MovCopies := by
  refine fun s d r => ⟨fun hv => ?_, fun hv => ?_⟩
  · exact exec_invalid_data r (lifecycleOk_of_lt _ (by simp [Instr.fields])) (.head _) hv
  · show s.settle (s.block.source r >>= fun v => .ok (s.block.writeData d v)) = _
    rw [Block.source_of_valid hv, ok_bind, State.settle_writeData]

/-- Settles O18: the lifecycle check, then the source, then the write. -/
theorem cfgsetWritesTheField : Obligations.CfgsetWritesTheField := by
  refine fun s sel r => ⟨fun hl => ?_, fun hl hv => ?_, fun hl hv => ?_⟩
  · exact exec_configLocked (.inl rfl) hl
  · exact exec_invalid_data r ⟨fun h => by simp [Instr.fields] at h, fun _ => hl⟩ (.head _) hv
  · show s.settle (s.block.needUnlocked >>= fun _ => s.block.source r >>= fun v => .ok (s.block.writeField sel v)) = _
    rw [Block.needUnlocked_of_unlocked hl, ok_bind, Block.source_of_valid hv, ok_bind]
    rfl

/-! ### LD and ST: the limbs of a value (20_memory.md R65) -/

theorem sumLimbs_lt (ws : List Word) : sumLimbs ws < 2 ^ (32 * ws.length) := by
  induction ws with
  | nil => simp [sumLimbs]
  | cons w ws ih =>
    have hw : w.toNat < 2 ^ 32 := w.isLt
    rw [sumLimbs, List.length_cons, mul_add, mul_one, pow_add, mul_comm (2 ^ (32 * ws.length))]
    nlinarith

theorem sumLimbs_ofFn {n : Nat} (f : Fin n → Word) :
    sumLimbs (List.ofFn f) = ∑ i : Fin n, (f i).toNat * 2 ^ (32 * i.val) := by
  induction n with
  | zero => simp [sumLimbs]
  | succ n ih =>
    have shift : ∀ i : Fin n, 2 ^ 32 * ((f i.succ).toNat * 2 ^ (32 * i.val)) = (f i.succ).toNat * 2 ^ (32 * i.succ.val) := by
      intro i
      rw [Fin.val_succ, mul_add, pow_add]
      ring
    rw [List.ofFn_succ, sumLimbs, ih, Fin.sum_univ_succ, Finset.mul_sum]
    simp only [shift, Fin.val_zero, mul_zero, pow_zero, mul_one]

theorem sumLimbs_toList (w : Vector Word Config.limbs) :
    sumLimbs w.toList = ∑ i : Fin 17, (w[i]).toNat * 2 ^ (32 * i.val) := by
  rw [← sumLimbs_ofFn]
  congr 1
  exact List.ext_getElem (by simp only [Vector.length_toList, List.length_ofFn]) fun i h1 h2 => by
    rw [Vector.getElem_toList, List.getElem_ofFn, Fin.getElem_fin]

/-- The limbs below `n` make up the value modulo `2^(32*n)`. -/
theorem sum_limbs (v n : Nat) : ∑ i : Fin n, v / 2 ^ (32 * i.val) % 2 ^ 32 * 2 ^ (32 * i.val) = v % 2 ^ (32 * n) := by
  induction n with
  | zero => simp [Nat.mod_one]
  | succ n ih =>
    rw [Fin.sum_univ_castSucc]
    simp only [Fin.val_castSucc, Fin.val_last, ih]
    rw [mul_add, mul_one, pow_add, Nat.mod_mul]
    ring

/-- The limbs of a value make up the value (R65). -/
theorem assemble_limbsOf (v : Value) : assemble (limbsOf v) = v := by
  have hsum : sumLimbs (limbsOf v).toList = v.toNat := by
    rw [sumLimbs_toList]
    simp only [limbsOf, Fin.getElem_fin, Vector.getElem_ofFn, limb_toNat, sum_limbs, Nat.reduceMul]
    simpa only [Config.width] using Nat.mod_eq_of_lt v.isLt
  rw [assemble, hsum, ofNat, BitVec.ofNat_toNat, BitVec.setWidth_eq]

theorem exec_ld (d : DataReg) (s : State) : exec (.ld d) s = .next (s.wroteData d (assemble s.block.din)) := rfl

/-- LD of the limbs of a value writes the value. -/
theorem exec_ld_of_limbs {s : State} {v : Value} (d : DataReg) (h : s.block.din = limbsOf v) :
    exec (.ld d) s = .next (s.wroteData d v) := by
  rw [exec_ld, h, assemble_limbsOf]

/-- Settles O15: `assemble` is the sum over the limbs. -/
theorem ldLoadsTheLimbSum : Obligations.LdLoadsTheLimbSum := by
  intro s d
  rw [← sumLimbs_toList]
  refine ⟨?_, exec_ld d s⟩
  simpa only [Vector.length_toList, Config.limbs, Nat.reduceMul] using sumLimbs_lt s.block.din.toList

/-- Settles O16: an ST that succeeds stores `limbsOf` the register. -/
theorem stStoresTheLimbs : Obligations.StStoresTheLimbs := by
  refine fun s r => ⟨exec_st_uninit s r, fun n ⟨hv, hn⟩ => ⟨_, exec_st_valid s r hv, fun i => ?_⟩⟩
  rw [← hn, ← limb_toNat, Block.writeDout_dout, limbsOf, Fin.getElem_fin, Vector.getElem_ofFn]

/-- Settles O57: the words are the limbs of the register, and LD puts limbs together. -/
theorem storedLimbsLoadBack : Obligations.StoredLimbsLoadBack := by
  intro s t r d hv h
  rw [exec_st_valid s r hv] at h
  cases h
  exact exec_ld_of_limbs d rfl

end Sys2Proof.Machine

/-! Modular arithmetic: MADD, MNEG, MMUL, MINV, MPOW, MSQRT (41_field_arithmetic_pipeline.md to 44_modular_exponentiation_engine.md).
Each command's errors come from the stages of R244; past them it writes the value of its field function. -/

namespace Sys2Proof.Machine

/-! ### The field functions on residues -/

theorem fneg_eq_ite {P a : Nat} (h : a < P) : fneg P a = if a = 0 then 0 else P - a := by
  unfold fneg
  split
  · next h0 => rw [h0, Nat.sub_zero, Nat.mod_self]
  · exact Nat.mod_eq_of_lt (by omega)

theorem fmul_modEq (P a b : Nat) : fmul P a b ≡ a * b [MOD P] := Nat.mod_modEq _ _

/-- The loop of R170 over the low `i` bits squares the running product `i` times and multiplies by `a` as often as those bits say. -/
theorem powLoop_modEq (P a e i r : Nat) : powLoop P a e i r ≡ r ^ 2 ^ i * a ^ (e % 2 ^ i) [MOD P] := by
  induction i generalizing r with
  | zero => simpa [powLoop, Nat.mod_one] using Nat.ModEq.refl r
  | succ i ih =>
    have square : fmul P r r ≡ r ^ 2 [MOD P] := sq r ▸ fmul_modEq P r r
    have next : (if e.testBit i then fmul P (fmul P r r) a else fmul P r r) ≡ r ^ 2 * a ^ (e.testBit i).toNat [MOD P] := by
      cases e.testBit i with
      | true => simpa using (fmul_modEq P _ a).trans (square.mul_right a)
      | false => simpa using square
    calc powLoop P a e (i + 1) r
        ≡ (if e.testBit i then fmul P (fmul P r r) a else fmul P r r) ^ 2 ^ i * a ^ (e % 2 ^ i) [MOD P] := ih _
      _ ≡ (r ^ 2 * a ^ (e.testBit i).toNat) ^ 2 ^ i * a ^ (e % 2 ^ i) [MOD P] := (next.pow _).mul_right _
      _ = r ^ 2 ^ (i + 1) * a ^ (e % 2 ^ (i + 1)) := by
        rw [Nat.mod_pow_succ, ← Nat.toNat_testBit]
        ring

theorem powLoop_lt {P a e i r : Nat} (hr : r < P) : powLoop P a e i r < P := by
  induction i generalizing r with
  | zero => exact hr
  | succ i ih =>
    refine ih ?_
    split
    · exact Nat.mod_lt _ (by omega)
    · exact Nat.mod_lt _ (by omega)

/-- `fpow(a, e) = a^e mod P` (R170). -/
theorem fpow_eq {P : Nat} (hP : 1 < P) (a e : Nat) : fpow P a e = a ^ e % P := by
  have h := powLoop_modEq P a e (bitlen e) 1
  rw [one_pow, one_mul, Nat.mod_eq_of_lt (lt_two_pow_bitlen e)] at h
  exact (Nat.mod_eq_of_modEq h.symm (powLoop_lt hP)).symm

/-- `fsqrt` for `P mod 4 = 3` (R173). -/
theorem fsqrt_eq {P a : Nat} (hP : P % 4 = 3) : fsqrt P a =
    if a ^ ((P + 1) / 4) % P * (a ^ ((P + 1) / 4) % P) % P = a then .ok (a ^ ((P + 1) / 4) % P) else .error .noSquareRoot := by
  have hP1 : 1 < P := by omega
  simp only [fsqrt, hP, ne_eq, not_true, if_false, fpow_eq hP1, fmul, ite_not]

theorem fsqrt_unsupported {P a : Nat} (hP : P % 4 ≠ 3) : fsqrt P a = .error .unsupportedModulus := if_pos hP

/-! ### The commands past their checks -/

section Held

variable {s : State} {d r r1 r2 : DataReg} {a b : Nat} (hl : s.block.locked = true)
include hl

theorem exec_madd_of_holds (h1 : s.block.Holds r1 a) (h2 : s.block.Holds r2 b) (ha : a < s.block.P) (hb : b < s.block.P) :
    exec (.madd d r1 r2) s = .next (s.wroteData d (ofNat (fadd s.block.P a b))) := by
  obtain ⟨hv1, rfl⟩ := h1
  obtain ⟨hv2, rfl⟩ := h2
  simp only [exec, execMadd, Block.needLocked_of_locked hl, Block.source_of_valid hv1, Block.source_of_valid hv2,
    Block.residue_of_lt ha, Block.residue_of_lt hb, ok_bind]
  rfl

theorem exec_mneg_of_holds (h : s.block.Holds r a) (ha : a < s.block.P) :
    exec (.mneg d r) s = .next (s.wroteData d (ofNat (fneg s.block.P a))) := by
  obtain ⟨hv, rfl⟩ := h
  simp only [exec, execMneg, Block.needLocked_of_locked hl, Block.source_of_valid hv, Block.residue_of_lt ha, ok_bind]
  rfl

theorem exec_minv_of_holds (h : s.block.Holds r a) (ha : a < s.block.P) :
    exec (.minv d r) s = s.settle (finv s.block.P a >>= fun c => .ok (s.block.writeData d (ofNat c))) := by
  obtain ⟨hv, rfl⟩ := h
  simp only [exec, execMinv, Block.needLocked_of_locked hl, Block.source_of_valid hv, Block.residue_of_lt ha, ok_bind]
  rfl

theorem exec_mpow_of_holds (h1 : s.block.Holds r1 a) (h2 : s.block.Holds r2 b) (ha : a < s.block.P) :
    exec (.mpow d r1 r2) s = .next (s.wroteData d (ofNat (fpow s.block.P a b))) := by
  obtain ⟨hv1, rfl⟩ := h1
  obtain ⟨hv2, rfl⟩ := h2
  simp only [exec, execMpow, Block.needLocked_of_locked hl, Block.source_of_valid hv1, Block.source_of_valid hv2,
    Block.residue_of_lt ha, ok_bind]
  rfl

theorem exec_msqrt_of_holds (h : s.block.Holds r a) (ha : a < s.block.P) :
    exec (.msqrt d r) s = s.settle (fsqrt s.block.P a >>= fun c => .ok (s.block.writeData d (ofNat c))) := by
  obtain ⟨hv, rfl⟩ := h
  simp only [exec, execMsqrt, Block.needLocked_of_locked hl, Block.source_of_valid hv, Block.residue_of_lt ha, ok_bind]
  rfl

end Held

/-! ### The errors of a command with data sources -/

theorem sourcesValid_of_data {i : Instr} {b : Block} (hd : ∀ r ∈ dataSources i, b.xv[r] = true) (hp : pointSources i = []) :
    SourcesValid i b :=
  ⟨hd, by rw [hp]; exact nofun⟩

/-- One data source, which is a modular operand. -/
theorem exec_errors_one {i : Instr} {s : State} {r : DataReg} (hop : 0x10 ≤ i.fields.op.toNat) (hd : dataSources i = [r])
    (hp : pointSources i = []) (hm : modularOperands i = [r]) :
    (s.block.locked = false → exec i s = .next (s.failedWith 0x12)) ∧
    (s.block.locked = true → s.block.xv[r] = false → exec i s = .next (s.failedWith 0x11)) ∧
    (∀ a, s.block.locked = true → s.block.Holds r a → s.block.P ≤ a → exec i s = .next (s.failedWith 0x01)) := by
  refine ⟨exec_unlocked hop, fun hl hv => ?_, fun a hl ⟨hv, ha⟩ hle => ?_⟩
  · exact exec_invalid_data r (lifecycleOk_of_locked hop hl) (by simp [hd]) hv
  · exact exec_modulusMismatch r (lifecycleOk_of_locked hop hl) (sourcesValid_of_data (by simpa [hd] using hv) hp)
      (by simp [hm]) (ha ▸ hle)

/-- Two data sources: the errors of the lifecycle and of the sources. -/
theorem exec_errors_two {i : Instr} {s : State} {r1 r2 : DataReg} (hop : 0x10 ≤ i.fields.op.toNat)
    (hd : dataSources i = [r1, r2]) :
    (s.block.locked = false → exec i s = .next (s.failedWith 0x12)) ∧
    (s.block.locked = true → s.block.xv[r1] = false ∨ s.block.xv[r2] = false → exec i s = .next (s.failedWith 0x11)) := by
  refine ⟨exec_unlocked hop, fun hl hv => ?_⟩
  have hlife := lifecycleOk_of_locked hop hl
  rcases hv with hv | hv
  · exact exec_invalid_data r1 hlife (by simp [hd]) hv
  · exact exec_invalid_data r2 hlife (by simp [hd]) hv

section TwoSources

variable {i : Instr} {s : State} {r1 r2 : DataReg} {a b : Nat} (hd : dataSources i = [r1, r2]) (hp : pointSources i = [])
  (h1 : s.block.Holds r1 a) (h2 : s.block.Holds r2 b)
include hd hp h1 h2

theorem sourcesValid_two : SourcesValid i s.block := by
  obtain ⟨hv1, _⟩ := h1
  obtain ⟨hv2, _⟩ := h2
  exact sourcesValid_of_data (by simpa [hd] using ⟨hv1, hv2⟩) hp

/-- Two data sources, both modular operands, one of them not below `P`. -/
theorem exec_mismatch_two (hop : 0x10 ≤ i.fields.op.toNat) (hm : modularOperands i = [r1, r2]) (hl : s.block.locked = true)
    (hle : s.block.P ≤ a ∨ s.block.P ≤ b) : exec i s = .next (s.failedWith 0x01) := by
  have hlife := lifecycleOk_of_locked hop hl
  have hv := sourcesValid_two hd hp h1 h2
  obtain ⟨_, rfl⟩ := h1
  obtain ⟨_, rfl⟩ := h2
  rcases hle with hle | hle
  · exact exec_modulusMismatch r1 hlife hv (by simp [hm]) hle
  · exact exec_modulusMismatch r2 hlife hv (by simp [hm]) hle

end TwoSources

/-! ### The statements -/

/-- Settles O20: the errors stage by stage; past them MADD writes `fadd` of the operands. -/
theorem maddAddsModP : Obligations.MaddAddsModP := by
  intro s d r1 r2
  have hop : 0x10 ≤ (Instr.madd d r1 r2).fields.op.toNat := by simp [Instr.fields]
  obtain ⟨unlocked, uninit⟩ := exec_errors_two (s := s) hop rfl
  exact ⟨unlocked, uninit, fun a b hl h1 h2 => ⟨exec_mismatch_two rfl rfl h1 h2 hop rfl hl, exec_madd_of_holds hl h1 h2⟩⟩

/-- Settles O21: past its checks MNEG writes `fneg` of the operand, which is a residue. -/
theorem mnegNegatesModP : Obligations.MnegNegatesModP := by
  intro s d r
  obtain ⟨unlocked, uninit, mismatch⟩ := exec_errors_one (i := .mneg d r) (s := s) (by simp [Instr.fields]) rfl rfl rfl
  refine ⟨unlocked, uninit, fun a hl h => ⟨mismatch a hl h, fun ha => ?_⟩⟩
  rw [← fneg_eq_ite ha]
  exact exec_mneg_of_holds hl h ha

/-- Settles O22: the errors stage by stage; past them MMUL writes `fmul` of the operands. -/
theorem mmulMultipliesModP : Obligations.MmulMultipliesModP := by
  intro s d r1 r2
  have hop : 0x10 ≤ (Instr.mmul d r1 r2).fields.op.toNat := by simp [Instr.fields]
  obtain ⟨unlocked, uninit⟩ := exec_errors_two (s := s) hop rfl
  exact ⟨unlocked, uninit, fun a b hl h1 h2 => ⟨exec_mismatch_two rfl rfl h1 h2 hop rfl hl, exec_mmul_of_holds hl h1 h2⟩⟩

/-- The inverse of a unit is unique. -/
theorem inverse_unique {P a c c' : Nat} (hcop : Nat.gcd a P = 1) (hc : c < P) (hc' : c' < P) (h : a * c % P = 1)
    (h' : a * c' % P = 1) : c' = c := by
  have hmod : a * c' ≡ a * c [MOD P] := h'.trans h.symm
  exact (hmod.cancel_left_of_coprime (Nat.gcd_comm P a ▸ hcop)).eq_of_lt_of_lt hc' hc

/-- Settles O23: `finv` answers exactly for the units, and what it answers is the inverse. -/
theorem minvInvertsOrFails : Obligations.MinvInvertsOrFails := by
  intro s d r
  obtain ⟨unlocked, uninit, mismatch⟩ := exec_errors_one (i := .minv d r) (s := s) (by simp [Instr.fields]) rfl rfl rfl
  refine ⟨unlocked, uninit, fun a hl h => ⟨mismatch a hl h, fun _ ha hgcd => ?_, fun hP ha hgcd => ?_⟩⟩
  · rw [exec_minv_of_holds hl h ha, finv_of_not_coprime hgcd]
    rfl
  · obtain ⟨c, hc⟩ := exists_finv_of_coprime hgcd
    obtain ⟨hlt, hone⟩ := lt_and_fmul_eq_one_of_finv (by omega) hc
    refine ⟨c, hlt, hone, fun c' hlt' hone' => inverse_unique hgcd hlt hlt' hone hone', ?_⟩
    rw [exec_minv_of_holds hl h ha, hc]
    rfl

/-- Settles O24: only the base is a modular operand, and the loop of `fpow` reads every bit of the exponent. -/
theorem mpowIsThePowerModP : Obligations.MpowIsThePowerModP := by
  intro s d r1 r2
  have hop : 0x10 ≤ (Instr.mpow d r1 r2).fields.op.toNat := by simp [Instr.fields]
  obtain ⟨unlocked, uninit⟩ := exec_errors_two (s := s) hop rfl
  refine ⟨unlocked, uninit, fun a e hl h1 h2 => ⟨fun hle => ?_, fun hP ha => ?_⟩⟩
  · have hv := sourcesValid_two (i := .mpow d r1 r2) rfl rfl h1 h2
    obtain ⟨_, rfl⟩ := h1
    exact exec_modulusMismatch r1 (lifecycleOk_of_locked hop hl) hv (.head _) hle
  · rw [exec_mpow_of_holds hl h1 h2 ha, fpow_eq (by omega)]
    rfl

/-- Settles O25: `fsqrt` tests `P mod 4`, and then the square of the power that `fpow` computes. -/
theorem msqrtTakesTheShortcutRoot : Obligations.MsqrtTakesTheShortcutRoot := by
  intro s d r
  obtain ⟨unlocked, uninit, mismatch⟩ := exec_errors_one (i := .msqrt d r) (s := s) (by simp [Instr.fields]) rfl rfl rfl
  refine ⟨unlocked, uninit, fun a hl h => ⟨mismatch a hl h, fun ha hP => ?_, fun ha hP hne => ?_, fun ha hP heq => ?_⟩⟩
  · rw [exec_msqrt_of_holds hl h ha, fsqrt_unsupported hP]
    rfl
  · rw [exec_msqrt_of_holds hl h ha, fsqrt_eq hP, if_neg hne]
    rfl
  · rw [exec_msqrt_of_holds hl h ha, fsqrt_eq hP, if_pos heq]
    rfl

end Sys2Proof.Machine

/-! Point commands: PSET, PINF, PLDG, PMOV, PGETX, PGETY, PADD, PNEG (45_elliptic_curve_point_adder.md) and PMUL
(46_elliptic_curve_scalar_multiplier.md). -/

namespace Sys2Proof.Machine

/-! ### The errors of a command with point sources -/

/-- Every point source is tested, in a configured block. -/
theorem exec_errors_point {i : Instr} {s : State} {q : PointIdx} (hop : 0x10 ≤ i.fields.op.toNat) (hq : q ∈ pointSources i) :
    (s.block.locked = false → exec i s = .next (s.failedWith 0x12)) ∧
    (s.block.locked = true → s.block.q[q] = .empty → exec i s = .next (s.failedWith 0x11)) :=
  ⟨exec_unlocked hop, fun hl he => exec_empty_point q (lifecycleOk_of_locked hop hl) hq he⟩

/-! ### The commands past their checks -/

section Held

variable {s : State} {d q1 q2 : PointIdx} {r : DataReg} {p p' : CurvePoint} (hl : s.block.locked = true)
include hl

theorem exec_pset_of_holds {d : PointIdx} {r1 r2 : DataReg} {x y : Nat} (h1 : s.block.Holds r1 x) (h2 : s.block.Holds r2 y)
    (hx : x < s.block.P) (hy : y < s.block.P) :
    exec (.pset d r1 r2) s = s.settle (if onCurve s.block.P s.block.A s.block.B x y then
      .ok (s.block.writePoint d (.aff s.block.x[r1] s.block.x[r2])) else .error .invalidPoint) := by
  obtain ⟨hv1, rfl⟩ := h1
  obtain ⟨hv2, rfl⟩ := h2
  simp only [exec, execPset, Block.needLocked_of_locked hl, Block.source_of_valid hv1, Block.source_of_valid hv2,
    Block.residue_of_lt hx, Block.residue_of_lt hy, ok_bind]
  rfl

theorem exec_pinf_locked : exec (.pinf d) s = .next (s.wrotePoint d .inf) := by
  simp only [exec, execPinf, Block.needLocked_of_locked hl, ok_bind]
  rfl

theorem exec_pldg_locked : exec (.pldg d) s = .next (s.wrotePoint d (.aff (s.block.field .gx) (s.block.field .gy))) := by
  simp only [exec, execPldg, Block.needLocked_of_locked hl, ok_bind]
  rfl

theorem exec_pmov_of_holds (h : s.block.q[q1] = .holds p) : exec (.pmov d q1) s = .next (s.wrotePoint d p) := by
  simp only [exec, execPmov, Block.needLocked_of_locked hl, Block.sourcePoint_of_holds h, ok_bind]
  rfl

theorem exec_pneg_of_holds (h : s.block.q[q1] = .holds p) :
    exec (.pneg d q1) s = .next (s.wrotePoint d (groupInverse s.block.P p)) := by
  simp only [exec, execPneg, Block.needLocked_of_locked hl, Block.sourcePoint_of_holds h, ok_bind]
  rfl

theorem exec_pgetx_of_inf {d : DataReg} (h : s.block.q[q1] = .holds .inf) :
    exec (.pgetx d q1) s = .next (s.failedWith 0x15) := by
  simp only [exec, execPgetx, Block.needLocked_of_locked hl, Block.sourcePoint_of_holds h, ok_bind]
  rfl

theorem exec_pgety_of_inf {d : DataReg} (h : s.block.q[q1] = .holds .inf) :
    exec (.pgety d q1) s = .next (s.failedWith 0x15) := by
  simp only [exec, execPgety, Block.needLocked_of_locked hl, Block.sourcePoint_of_holds h, ok_bind]
  rfl

theorem exec_pgetx_of_aff {d : DataReg} {x y : Value} (h : s.block.q[q1] = .holds (.aff x y)) :
    exec (.pgetx d q1) s = .next (s.wroteData d x) := by
  simp only [exec, execPgetx, Block.needLocked_of_locked hl, Block.sourcePoint_of_holds h, ok_bind]
  rfl

theorem exec_pgety_of_aff {d : DataReg} {x y : Value} (h : s.block.q[q1] = .holds (.aff x y)) :
    exec (.pgety d q1) s = .next (s.wroteData d y) := by
  simp only [exec, execPgety, Block.needLocked_of_locked hl, Block.sourcePoint_of_holds h, ok_bind]
  rfl

/-- PADD writes what `group_op` answers, or fails with its error. -/
theorem exec_padd_of_holds (h1 : s.block.q[q1] = .holds p) (h2 : s.block.q[q2] = .holds p') :
    exec (.padd d q1 q2) s = s.settle (groupOp s.block.P s.block.A p p' >>= fun t => .ok (s.block.writePoint d t)) := by
  simp only [exec, execPadd, Block.needLocked_of_locked hl, Block.sourcePoint_of_holds h1, Block.sourcePoint_of_holds h2, ok_bind]
  rfl

/-- PMUL writes what `scalar_mul` answers, or fails with its error. -/
theorem exec_pmul_of_holds {k : Nat} (h1 : s.block.q[q1] = .holds p) (h2 : s.block.Holds r k) :
    exec (.pmul d q1 r) s = s.settle (scalarMul s.block.P s.block.A p k >>= fun t => .ok (s.block.writePoint d t)) := by
  obtain ⟨hv, rfl⟩ := h2
  simp only [exec, execPmul, Block.needLocked_of_locked hl, Block.sourcePoint_of_holds h1, Block.source_of_valid hv, ok_bind]
  rfl

end Held

/-! ### Making, copying and reading points (R188 to R193, R195) -/

/-- Settles O27: past its checks PSET writes the point when `on_curve` says so, which is the equation modulo `P`. -/
theorem psetChecksTheCurve : Obligations.PsetChecksTheCurve := by
  intro s d r1 r2
  have hop : 0x10 ≤ (Instr.pset d r1 r2).fields.op.toNat := by simp [Instr.fields]
  obtain ⟨unlocked, uninit⟩ := exec_errors_two (s := s) hop rfl
  refine ⟨unlocked, uninit, fun x y hl h1 h2 =>
    ⟨exec_mismatch_two rfl rfl h1 h2 hop rfl hl, fun hx hy hne => ?_, fun hx hy heq => ?_⟩⟩
  · rw [exec_pset_of_holds hl h1 h2 hx hy, if_neg (mt (onCurve_iff _ _ _ _ _).1 hne)]
    rfl
  · rw [exec_pset_of_holds hl h1 h2 hx hy, if_pos ((onCurve_iff _ _ _ _ _).2 heq)]
    rfl

/-- Settles O28: the lifecycle check is the only one. -/
theorem pinfAndPldgConstruct : Obligations.PinfAndPldgConstruct :=
  fun _ _ => ⟨fun hl => ⟨exec_unlocked (by simp [Instr.fields]) hl, exec_unlocked (by simp [Instr.fields]) hl⟩,
    fun hl => ⟨exec_pinf_locked hl, exec_pldg_locked hl⟩⟩

/-- The negative of a residue, as a value (R187). -/
theorem ofNat_fneg {b : Block} {y : Value} (h : y.toNat < b.P) :
    ofNat (fneg b.P y.toNat) = if y = 0 then 0 else b.field .p - y := by
  have hzero : y.toNat = 0 ↔ y = 0 := by simp [BitVec.toNat_eq]
  simp only [fneg_eq_ite h, hzero]
  split
  · exact BitVec.ofNat_eq_ofNat
  · have hle : y ≤ b.field .p := BitVec.le_def.2 h.le
    rw [Block.P, ← BitVec.toNat_sub_of_le hle, ofNat, BitVec.ofNat_toNat, BitVec.setWidth_eq]

/-- Settles O29: PMOV writes the source's point and PNEG its `group_inverse`. -/
theorem pmovAndPnegResults : Obligations.PmovAndPnegResults := by
  intro s d q1
  obtain ⟨movUnlocked, movEmpty⟩ := exec_errors_point (i := .pmov d q1) (s := s) (q := q1) (by simp [Instr.fields]) (.head _)
  obtain ⟨negUnlocked, negEmpty⟩ := exec_errors_point (i := .pneg d q1) (s := s) (q := q1) (by simp [Instr.fields]) (.head _)
  refine ⟨fun hl => ⟨movUnlocked hl, negUnlocked hl⟩, fun hl he => ⟨movEmpty hl he, negEmpty hl he⟩,
    fun p hl h => exec_pmov_of_holds hl h, fun hl h => exec_pneg_of_holds hl h, fun x y hl h hy => ?_⟩
  rw [exec_pneg_of_holds hl h, groupInverse, ofNat_fneg hy]

/-- Settles O30: past the source the point decides, `INF` or a coordinate. -/
theorem pgetReadsCoordinates : Obligations.PgetReadsCoordinates := by
  intro s d q1
  obtain ⟨xUnlocked, xEmpty⟩ := exec_errors_point (i := .pgetx d q1) (s := s) (q := q1) (by simp [Instr.fields]) (.head _)
  obtain ⟨yUnlocked, yEmpty⟩ := exec_errors_point (i := .pgety d q1) (s := s) (q := q1) (by simp [Instr.fields]) (.head _)
  exact ⟨fun hl => ⟨xUnlocked hl, yUnlocked hl⟩, fun hl he => ⟨xEmpty hl he, yEmpty hl he⟩,
    fun hl h => ⟨exec_pgetx_of_inf hl h, exec_pgety_of_inf hl h⟩,
    fun x y hl h => ⟨exec_pgetx_of_aff hl h, exec_pgety_of_aff hl h⟩⟩

/-! ### PADD: the identity and the inverse (R186, cases 1 to 3) -/

/-- Case 3 of `group_op` is that of residues whose sum is 0. -/
theorem eq_fneg_iff {P y1 y2 : Nat} (h1 : y1 < P) (h2 : y2 < P) : y2 = fneg P y1 ↔ (y1 + y2) % P = 0 := by
  rw [fneg_eq_ite h1]
  by_cases hlt : y1 + y2 < P
  · rw [Nat.mod_eq_of_lt hlt]
    split <;> omega
  · rw [Nat.mod_eq_sub_mod (by omega), Nat.mod_eq_of_lt (by omega)]
    split <;> omega

theorem exec_padd_of_groupOp_ok {s : State} {d q1 q2 : PointIdx} {p p' t : CurvePoint} (hl : s.block.locked = true)
    (h1 : s.block.q[q1] = .holds p) (h2 : s.block.q[q2] = .holds p') (h : groupOp s.block.P s.block.A p p' = .ok t) :
    exec (.padd d q1 q2) s = .next (s.wrotePoint d t) := by
  rw [exec_padd_of_holds hl h1 h2, h]
  rfl

/-- Settles O31: the errors of the two sources, then the first three cases of `group_op`. -/
theorem paddIdentityAndInverse : Obligations.PaddIdentityAndInverse := by
  intro s d q1 q2
  obtain ⟨unlocked, empty1⟩ := exec_errors_point (i := .padd d q1 q2) (s := s) (q := q1) (by simp [Instr.fields]) (.head _)
  obtain ⟨_, empty2⟩ := exec_errors_point (i := .padd d q1 q2) (s := s) (q := q2) (by simp [Instr.fields]) (.tail _ (.head _))
  refine ⟨unlocked, fun hl he => he.elim (empty1 hl) (empty2 hl), fun p hl h1 h2 => ?_, fun p hl h1 h2 => ?_,
    fun x y1 y2 hl h1 h2 hy1 hy2 hsum => ?_⟩
  · exact exec_padd_of_groupOp_ok hl h1 h2 (groupOp_inf_left _ _ p)
  · exact exec_padd_of_groupOp_ok hl h1 h2 (groupOp_inf_right _ _ p)
  · exact exec_padd_of_groupOp_ok hl h1 h2 (if_pos ⟨rfl, (eq_fneg_iff hy1 hy2).2 hsum⟩)

/-! ### PADD: the tangent and the chord (R186, cases 4 to 6) -/

/-- The numerator of the slope as an integer: of the tangent when the points are equal, else of the chord. -/
def lineNum (P A : Nat) (x1 y1 x2 y2 : Value) : Nat :=
  if x1 = x2 ∧ y1 = y2 then 3 * x1.toNat ^ 2 + A else y2.toNat + (P - y1.toNat)

/-- The denominator of the slope as an integer. -/
def lineDen (P : Nat) (x1 y1 x2 y2 : Value) : Nat :=
  if x1 = x2 ∧ y1 = y2 then 2 * y1.toNat else x2.toNat + (P - x1.toNat)

section Line

variable {P : Nat}

/-- Values below `P` are equal when their residues are. -/
theorem natCast_toNat_inj {v w : Value} (hv : v.toNat < P) (hw : w.toNat < P) :
    (v.toNat : ZMod P) = w.toNat ↔ v = w := by
  rw [ZMod.natCast_eq_natCast_iff', Nat.mod_eq_of_lt hv, Nat.mod_eq_of_lt hw, BitVec.toNat_inj]

theorem aff_eq_affinePoint {x y : Value} (hx : x.toNat < P) (hy : y.toNat < P) :
    CurvePoint.aff x y = affinePoint (x.toNat : ZMod P) (y.toNat : ZMod P) := by
  rw [affinePoint, ofNat_val_toNat_cast hx, ofNat_val_toNat_cast hy]

/-- A difference of residues, written with natural numbers. -/
theorem natCast_add_sub {a b : Nat} (h : b ≤ P) : ((a + (P - b) : Nat) : ZMod P) = a - b := by
  rw [Nat.cast_add, Nat.cast_sub h, ZMod.natCast_self]
  ring

variable {A : Nat} {x1 y1 x2 y2 : Value}

theorem lineNum_cast (hx1 : x1.toNat < P) (hy1 : y1.toNat < P) (hx2 : x2.toNat < P) (hy2 : y2.toNat < P) :
    (lineNum P A x1 y1 x2 y2 : ZMod P) = slopeNum A x1.toNat y1.toNat x2.toNat y2.toNat := by
  simp only [lineNum, slopeNum, apply_ite (Nat.cast (R := ZMod P)), natCast_add_sub hy1.le, natCast_toNat_inj hx1 hx2,
    natCast_toNat_inj hy1 hy2]
  push_cast
  rw [sq]

theorem lineDen_cast (hx1 : x1.toNat < P) (hy1 : y1.toNat < P) (hx2 : x2.toNat < P) (hy2 : y2.toNat < P) :
    (lineDen P x1 y1 x2 y2 : ZMod P) = slopeDen x1.toNat y1.toNat x2.toNat y2.toNat := by
  simp only [lineDen, slopeDen, apply_ite (Nat.cast (R := ZMod P)), natCast_add_sub hx1.le, natCast_toNat_inj hx1 hx2,
    natCast_toNat_inj hy1 hy2]
  push_cast
  rw [two_mul]

/-- The condition of case 3 in `ZMod P`. -/
theorem neg_iff_add_mod (hx1 : x1.toNat < P) (hx2 : x2.toNat < P) :
    (x1.toNat : ZMod P) = x2.toNat ∧ (y1.toNat : ZMod P) = -y2.toNat ↔ x1 = x2 ∧ (y1.toNat + y2.toNat) % P = 0 := by
  rw [natCast_toNat_inj hx1 hx2, eq_neg_iff_add_eq_zero, ← Nat.cast_add, ZMod.natCast_eq_zero_iff, Nat.dvd_iff_mod_eq_zero]

/-- R186, cases 4 to 6, by congruences: the slope, and the third point on its line. -/
theorem groupOp_line (hP1 : 1 < P) (hP : P < 2 ^ 544) (hx1 : x1.toNat < P) (hy1 : y1.toNat < P) (hx2 : x2.toNat < P)
    (hy2 : y2.toNat < P) (hneg : ¬(x1 = x2 ∧ (y1.toNat + y2.toNat) % P = 0)) :
    (Nat.gcd (lineDen P x1 y1 x2 y2) P ≠ 1 → groupOp P A (.aff x1 y1) (.aff x2 y2) = .error .noInverse) ∧
    (Nat.gcd (lineDen P x1 y1 x2 y2) P = 1 → ∃ lam x3 y3 : Nat, lam < P ∧ x3 < P ∧ y3 < P ∧
      lam * lineDen P x1 y1 x2 y2 ≡ lineNum P A x1 y1 x2 y2 [MOD P] ∧ x3 + x1.toNat + x2.toNat ≡ lam ^ 2 [MOD P] ∧
      y3 + y1.toNat + lam * x3 ≡ lam * x1.toNat [MOD P] ∧
      groupOp P A (.aff x1 y1) (.aff x2 y2) = .ok (.aff (ofNat x3) (ofNat y3))) := by
  have : NeZero P := .of_gt hP1
  rw [← neg_iff_add_mod hx1 hx2] at hneg
  have hunit := ZMod.isUnit_iff_coprime (lineDen P x1 y1 x2 y2) P
  have hnum := lineNum_cast (A := A) hx1 hy1 hx2 hy2
  have hden := lineDen_cast hx1 hy1 hx2 hy2
  rw [aff_eq_affinePoint hx1 hy1, aff_eq_affinePoint hx2 hy2]
  refine ⟨fun hgcd => ?_, fun hgcd => ?_⟩
  · exact groupOp_affinePoint_of_not_isUnit hP A hneg (hden ▸ mt hunit.1 hgcd)
  · have hu := hunit.2 hgcd
    rw [hden] at hu
    have hl := lineSlope_mul_slopeDen (A : ZMod P) hu
    refine ⟨(lineSlope (A : ZMod P) x1.toNat y1.toNat x2.toNat y2.toNat).val, _, _, ZMod.val_lt _, ZMod.val_lt _,
      ZMod.val_lt _, ?_, ?_, ?_, groupOp_affinePoint_of_isUnit hP1 hP A hneg hu⟩
    · rw [← ZMod.natCast_eq_natCast_iff, Nat.cast_mul, ZMod.natCast_zmod_val, hden, hnum]
      exact hl
    · rw [← ZMod.natCast_eq_natCast_iff]
      push_cast
      rw [ZMod.natCast_zmod_val, ZMod.natCast_zmod_val, thirdX]
      ring
    · rw [← ZMod.natCast_eq_natCast_iff]
      push_cast
      rw [ZMod.natCast_zmod_val, ZMod.natCast_zmod_val, ZMod.natCast_zmod_val, thirdY]
      ring

end Line

/-- Settles O32: PADD answers what `group_op` does, and `groupOp_line` is its last three cases. -/
theorem paddTangentAndChord : Obligations.PaddTangentAndChord := by
  intro s d q1 q2 x1 y1 x2 y2 P num den hl h1 h2 hP hx1 hy1 hx2 hy2 hneg
  obtain ⟨noInverse, line⟩ := groupOp_line (A := s.block.A) (by omega) s.block.P_lt hx1 hy1 hx2 hy2 hneg
  refine ⟨fun hgcd => ?_, fun hgcd => ?_⟩
  · rw [exec_padd_of_holds hl h1 h2, noInverse hgcd]
    rfl
  · obtain ⟨lam, x3, y3, hlam, hx3, hy3, hslope, hxline, hyline, hop⟩ := line hgcd
    exact ⟨lam, x3, y3, hlam, hx3, hy3, hslope, hxline, hyline, exec_padd_of_groupOp_ok hl h1 h2 hop⟩

end Sys2Proof.Machine

/-! PMUL and `scalar_mul` (46_elliptic_curve_scalar_multiplier.md): double-and-add from the most significant bit, the one error it can
answer, and its completion, with that of PADD, for a prime `P`. -/

namespace Sys2Proof.Machine

/-! ### The one error of the group operation (R186, R216) -/

/-- The computation fails with no other error than `ERR_NO_INVERSE`. -/
def OnlyNoInverse {α : Type} (r : Except ErrorCode α) : Prop := ∀ e, r = .error e → e = .noInverse

theorem OnlyNoInverse.ok {α : Type} (a : α) : OnlyNoInverse (.ok a) := nofun

theorem OnlyNoInverse.bind {α β : Type} {m : Except ErrorCode α} {f : α → Except ErrorCode β} (hm : OnlyNoInverse m)
    (hf : ∀ a, OnlyNoInverse (f a)) : OnlyNoInverse (m >>= f) := by
  cases m with
  | ok a => exact hf a
  | error e =>
    intro e' he
    cases he
    exact hm e rfl

theorem finv_onlyNoInverse (P a : Nat) : OnlyNoInverse (finv P a) := by
  by_cases h : a.Coprime P
  · obtain ⟨c, hc⟩ := exists_finv_of_coprime h
    exact hc ▸ .ok c
  · rw [finv_of_not_coprime h]
    rintro _ ⟨⟩
    rfl

theorem groupOp_onlyNoInverse (P A : Nat) (S T : CurvePoint) : OnlyNoInverse (groupOp P A S T) := by
  rcases S with _ | ⟨x1, y1⟩
  · exact .ok T
  rcases T with _ | ⟨x2, y2⟩
  · exact .ok _
  dsimp only [groupOp]
  split
  · exact .ok _
  · exact .bind (.bind (finv_onlyNoInverse _ _) fun _ => .ok _) fun _ => .ok _

theorem addOnOne_onlyNoInverse (P A : Nat) (S : CurvePoint) (one : Bool) (r : CurvePoint) :
    OnlyNoInverse (addOnOne P A S one r) := by
  cases one
  · exact .ok r
  · exact groupOp_onlyNoInverse P A r S

theorem mulLoop_onlyNoInverse (P A : Nat) (S : CurvePoint) (k i : Nat) (r : CurvePoint) :
    OnlyNoInverse (mulLoop P A S k i r) := by
  induction i generalizing r with
  | zero => exact .ok r
  | succ i ih => exact .bind (groupOp_onlyNoInverse P A r r) fun d => .bind (addOnOne_onlyNoInverse P A S _ d) ih

theorem scalarMul_onlyNoInverse (P A : Nat) (S : CurvePoint) (k : Nat) : OnlyNoInverse (scalarMul P A S k) :=
  mulLoop_onlyNoInverse P A S k _ .inf

/-! ### Double-and-add, by the bits of the scalar (R215) -/

theorem bitlen_bit (one : Bool) (k : Nat) (h : Nat.bit one k ≠ 0) : bitlen (Nat.bit one k) = bitlen k + 1 := by
  have hdiv : Nat.bit one k / 2 = k := Nat.bit_div_two one k
  by_cases hk : k = 0
  · subst hk
    cases one with
    | false => exact absurd rfl h
    | true => rfl
  · rw [bitlen, if_neg h, bitlen, if_neg hk, Nat.log2_def, if_pos (by omega), hdiv]

/-- One more bit at the least significant end is one more round at the end of the loop. -/
theorem mulLoop_bit (P A : Nat) (S : CurvePoint) (one : Bool) (k i : Nat) (r : CurvePoint) :
    mulLoop P A S (Nat.bit one k) (i + 1) r =
      mulLoop P A S k i r >>= fun R => groupOp P A R R >>= addOnOne P A S one := by
  induction i generalizing r with
  | zero =>
    simp only [mulLoop, Nat.testBit_bit_zero, ok_bind]
    exact congrArg _ (funext fun _ => bind_pure _)
  | succ i ih =>
    rw [mulLoop, mulLoop]
    simp only [ih, Nat.testBit_bit_succ, bind_assoc]

/-- `scalar_mul` of a scalar with one more bit. -/
theorem scalarMul_bit (P A : Nat) (S : CurvePoint) (one : Bool) (k : Nat) : scalarMul P A S (Nat.bit one k) =
    scalarMul P A S k >>= fun R => groupOp P A R R >>= addOnOne P A S one := by
  by_cases h : Nat.bit one k = 0
  · obtain ⟨rfl, rfl⟩ := Nat.bit_eq_zero_iff.1 h
    rfl
  · rw [scalarMul, bitlen_bit one k h, mulLoop_bit, scalarMul]

theorem scalarMul_two_mul (P A : Nat) (S : CurvePoint) (k : Nat) :
    scalarMul P A S (2 * k) = scalarMul P A S k >>= fun R => groupOp P A R R :=
  (scalarMul_bit P A S false k).trans (congrArg _ (funext fun R => bind_pure (groupOp P A R R)))

theorem scalarMul_two_mul_add_one (P A : Nat) (S : CurvePoint) (k : Nat) :
    scalarMul P A S (2 * k + 1) = scalarMul P A S k >>= fun R => groupOp P A R R >>= fun D => groupOp P A D S :=
  scalarMul_bit P A S true k

/-- Settles O33: PMUL answers what `scalar_mul` does, and `scalarMul_bit` is the recursion. -/
theorem pmulIsDoubleAndAdd : Obligations.PmulIsDoubleAndAdd := by
  refine ⟨fun s d q1 r => ?_, fun P A S k => ⟨rfl, ?_, ?_, ?_⟩⟩
  · have hop : 0x10 ≤ (Instr.pmul d q1 r).fields.op.toNat := by simp [Instr.fields]
    obtain ⟨unlocked, empty⟩ := exec_errors_point (s := s) (q := q1) hop (.head _)
    refine ⟨unlocked, fun hl hu => ?_, fun p k hl h1 h2 => ⟨fun t ht => ?_, fun e he => ?_⟩⟩
    · exact hu.elim (empty hl) (exec_invalid_data r (lifecycleOk_of_locked hop hl) (.head _))
    · rw [exec_pmul_of_holds hl h1 h2, ht]
      rfl
    · obtain rfl := scalarMul_onlyNoInverse _ _ _ _ e he
      rw [exec_pmul_of_holds hl h1 h2, he]
      rfl
  · rfl
  · exact scalarMul_two_mul P A S k
  · exact scalarMul_two_mul_add_one P A S k

/-! ### Completion for a prime `P` (R186, R194, R216) -/

section Prime

variable {P A B : Nat} [Fact P.Prime] {S T : CurvePoint}

/-- Past case 3 the denominator is a unit, so `group_op` of points of the curve always answers. -/
theorem exists_groupOp (hP : P < 2 ^ 544) (hS : IsCurvePoint P A B S) (hT : IsCurvePoint P A B T) :
    ∃ R, IsCurvePoint P A B R ∧ groupOp P A S T = .ok R := by
  have hP1 : 1 < P := (Fact.out : P.Prime).one_lt
  have answers : ∃ R, groupOp P A S T = .ok R := by
    obtain rfl | ⟨x1, y1, h1, rfl⟩ := hS.cases hP
    · exact ⟨T, groupOp_inf_left P A T⟩
    obtain rfl | ⟨x2, y2, h2, rfl⟩ := hT.cases hP
    · exact ⟨_, groupOp_inf_right P A _⟩
    by_cases hneg : x1 = x2 ∧ y1 = -y2
    · exact ⟨_, groupOp_affinePoint_of_neg hP A hneg⟩
    · exact ⟨_, groupOp_affinePoint_of_isUnit hP1 hP A hneg (isUnit_slopeDen h1 h2 hneg)⟩
  obtain ⟨R, hR⟩ := answers
  exact ⟨R, groupOp_isCurvePoint hP1 hP hS hT hR, hR⟩

theorem exists_addOnOne (hP : P < 2 ^ 544) (hS : IsCurvePoint P A B S) (hT : IsCurvePoint P A B T) (one : Bool) :
    ∃ R, IsCurvePoint P A B R ∧ addOnOne P A S one T = .ok R := by
  cases one with
  | false => exact ⟨T, hT, rfl⟩
  | true => exact exists_groupOp hP hT hS

theorem exists_mulLoop (hP : P < 2 ^ 544) (hS : IsCurvePoint P A B S) (hT : IsCurvePoint P A B T) (k i : Nat) :
    ∃ R, IsCurvePoint P A B R ∧ mulLoop P A S k i T = .ok R := by
  induction i generalizing T with
  | zero => exact ⟨T, hT, rfl⟩
  | succ i ih =>
    obtain ⟨doubled, hd, hdouble⟩ := exists_groupOp hP hT hT
    obtain ⟨next, hn, hadd⟩ := exists_addOnOne hP hS hd (k.testBit i)
    obtain ⟨R, hR, hloop⟩ := ih hn
    exact ⟨R, hR, by rw [mulLoop, hdouble, ok_bind, hadd, ok_bind, hloop]⟩

theorem exists_scalarMul (hP : P < 2 ^ 544) (hS : IsCurvePoint P A B S) (k : Nat) :
    ∃ R, IsCurvePoint P A B R ∧ scalarMul P A S k = .ok R :=
  exists_mulLoop hP hS (T := .inf) trivial k _

end Prime

/-- Settles O34: by the invariant the sources are points of the curve, of which both functions answer a point of the curve. -/
theorem primePointCommandsComplete : Obligations.PrimePointCommandsComplete := by
  intro s d q1 q2 r p1 p2 k hinv hprime h1
  have : Fact s.block.P.Prime := ⟨hprime⟩
  obtain ⟨hl, hp1⟩ := hinv.points q1 p1 h1
  refine ⟨fun h2 => ?_, fun h2 => ?_⟩
  · obtain ⟨_, hp2⟩ := hinv.points q2 p2 h2
    obtain ⟨t, ht, hop⟩ := exists_groupOp s.block.P_lt hp1 hp2
    exact ⟨t, ht, exec_padd_of_groupOp_ok hl h1 h2 hop⟩
  · obtain ⟨t, ht, hmul⟩ := exists_scalarMul s.block.P_lt hp1 k
    exact ⟨t, ht, by rw [exec_pmul_of_holds hl h1 h2, hmul]; rfl⟩

end Sys2Proof.Machine
